-- ==== Sys2Proof/Word.lean ====
section
/-! DEFINITION. Bytes, the index types of the card (slots, ports, loops, plan entries, groups) and register banks of fixed length. -/

namespace Sys2Proof

/-- One byte on a link or on the maintenance port (09 R154, 10 Table 10-1). -/
abbrev Byte := BitVec 8

/-- Slots S1 through S12 (section 1.6): index 0 is S1. -/
abbrev SlotIx := Fin 12

/-- Ports by port index 0 through 23 (section 1.6, Table 1-3). -/
abbrev PortIx := Fin 24

/-- Loops L0 through L5 (section 1.6). -/
abbrev LoopIx := Fin 6

/-- Plan entries 0 through 31 (section 1.6). -/
abbrev EntryIx := Fin 32

/-- Alignment groups G1 through G8 (section 1.6): index 0 is G1. -/
abbrev GroupIx := Fin 8

/-- The tag of a link frame, 0 to 7 (09 R159). -/
abbrev Tag := Fin 8

/-- A generation or a notice sequence number, 0 to 15, counting modulo 16 (01 R3, 08 R141). -/
abbrev Mod16 := Fin 16

/-- The next number modulo 16: 15 is followed by 0 (01 R3, 08 R143). -/
def Mod16.next (n : Mod16) : Mod16 := n + 1

/-- Read cell `i` of a bank of registers. -/
def rd {α : Type} {n : Nat} (v : Vector α n) (i : Fin n) : α := v[i]

/-- Write cell `i` of a bank of registers. -/
def wr {α : Type} {n : Nat} (v : Vector α n) (i : Fin n) (x : α) : Vector α n := v.set i x

/-- Change cell `i` of a bank by a function. -/
def upd {α : Type} {n : Nat} (v : Vector α n) (i : Fin n) (f : α → α) : Vector α n := wr v i (f (rd v i))

/-- A bank with the same value in every cell. -/
def fill {α : Type} (n : Nat) (x : α) : Vector α n := Vector.replicate n x

/-- Every cell of a bank changed by a function of its index and its value. -/
def mapCells {α : Type} {n : Nat} (f : Fin n → α → α) (v : Vector α n) : Vector α n := Vector.ofFn (fun i => f i (rd v i))

@[simp] theorem rd_wr_same {α : Type} {n : Nat} (v : Vector α n) (i : Fin n) (x : α) : rd (wr v i x) i = x := by
  simp [rd, wr]

@[simp] theorem rd_wr_ne {α : Type} {n : Nat} (v : Vector α n) (i j : Fin n) (x : α) (h : j ≠ i) :
    rd (wr v i x) j = rd v j := by
  have : i.val ≠ j.val := fun e => h (Fin.ext e.symm)
  simp [rd, wr, this]

theorem rd_wr {α : Type} {n : Nat} (v : Vector α n) (i j : Fin n) (x : α) :
    rd (wr v i x) j = if j = i then x else rd v j := by
  by_cases h : j = i
  · subst h; simp
  · simp [h]

@[simp] theorem rd_fill {α : Type} {n : Nat} (x : α) (i : Fin n) : rd (fill n x) i = x := by
  simp [rd, fill]

@[simp] theorem rd_mapCells {α : Type} {n : Nat} (f : Fin n → α → α) (v : Vector α n) (i : Fin n) :
    rd (mapCells f v) i = f i (rd v i) := by
  simp [rd, mapCells]

@[simp] theorem rd_upd_same {α : Type} {n : Nat} (v : Vector α n) (i : Fin n) (f : α → α) :
    rd (upd v i f) i = f (rd v i) := by
  simp [upd]

@[simp] theorem rd_upd_ne {α : Type} {n : Nat} (v : Vector α n) (i j : Fin n) (f : α → α) (h : j ≠ i) :
    rd (upd v i f) j = rd v j := by
  simp [upd, h]

/-- Two banks with equal cells are equal. -/
theorem bank_ext {α : Type} {n : Nat} (v w : Vector α n) (h : ∀ i, rd v i = rd w i) : v = w := by
  apply Vector.ext
  intro i hi
  exact h ⟨i, hi⟩

@[simp] theorem wr_rd {α : Type} {n : Nat} (v : Vector α n) (i : Fin n) : wr v i (rd v i) = v := by
  apply bank_ext
  intro j
  by_cases h : j = i
  · subst h; simp
  · simp [h]

/-- Every slot, S1 first. -/
def allSlots : List SlotIx := [0, 1, 2, 3, 4, 5, 6, 7, 8, 9, 10, 11]

/-- Every port in ascending port index. -/
def allPorts : List PortIx :=
  [0, 1, 2, 3, 4, 5, 6, 7, 8, 9, 10, 11, 12, 13, 14, 15, 16, 17, 18, 19, 20, 21, 22, 23]

/-- Every loop, L0 first. -/
def allLoops : List LoopIx := [0, 1, 2, 3, 4, 5]

/-- Every plan entry in entry number order. -/
def allEntries : List EntryIx :=
  [0, 1, 2, 3, 4, 5, 6, 7, 8, 9, 10, 11, 12, 13, 14, 15,
   16, 17, 18, 19, 20, 21, 22, 23, 24, 25, 26, 27, 28, 29, 30, 31]

/-- Every group id, G1 first. -/
def allGroups : List GroupIx := [0, 1, 2, 3, 4, 5, 6, 7]

/-- The distance between two whole numbers. -/
def absDiff (a b : Nat) : Nat := (a - b) + (b - a)

end Sys2Proof
end

