-- ==== Sys2Proof/Syntax.lean ====
section
/-! DEFINITION. The commands and events the card takes: one constructor of Instr for each row of spec/opcode_table.json, with the operands the spec gives it. -/

namespace Sys2Proof

/-- The three references (07 R126). -/
inductive Ref where
  | xo | refa | refb
  deriving DecidableEq, Repr

/-- A slot's line letter (section 1.6). -/
inductive Line where
  | a | b
  deriving DecidableEq, Repr

/-- What a grant's port does while its loop is not usable (Table 1-5). -/
inductive Policy where
  | fallback | stop | keep
  deriving DecidableEq, Repr

/-- The selector's mode (07 R132). -/
inductive SelMode where
  | revertive | nonrevertive
  deriving DecidableEq, Repr

/-- The qualification period: LONG, 1,000 ms, or SHORT, 100 ms (07 R131). -/
inductive QualPeriod where
  | long | short
  deriving DecidableEq, Repr

/-- The mode of a plan entry; a TIMED entry carries its settle time in ms (Table 2-1). -/
inductive LockMode where
  | auto
  | timed (settle : Nat)
  deriving DecidableEq, Repr

/-- The nine port notice kinds, in the order of Table 8-1. -/
inductive PortKind where
  | ready | degraded | restored | holdover | rescued | stranded | retuned | retuneFailed | retired
  deriving DecidableEq, Repr

/-- The two slot notice kinds (08 R142). -/
inductive SlotKind where
  | restarted | continued
  deriving DecidableEq, Repr

/-- A notice kind as an ACK names it (Table 9-2). -/
inductive NoticeKind where
  | port (k : PortKind)
  | slot (k : SlotKind)
  deriving DecidableEq, Repr

/-- Where a notice kind is held (08 R146). -/
inductive Place where
  | slot | lineA | lineB
  deriving DecidableEq, Repr

/-- The five attention causes, most urgent first (Table 8-3). -/
inductive Cause where
  | stationNone | loopFailed | grantStranded | stationSwitched | referenceQualified
  deriving DecidableEq, Repr

/-- What a comparison window carries: a signed error in whole ppm, or NO_ACTIVITY (03 section 3.3, 07 R128). -/
inductive WindowError where
  | ppm (e : Int)
  | noActivity
  deriving DecidableEq, Repr

/-- A handle: a port and a generation (section 1.6). -/
structure Handle where
  port : PortIx
  gen : Mod16
  deriving DecidableEq, Repr

/-- The jumper positions (12 Table 12-7): the address value, J4 and J5. -/
structure Jumpers where
  address : Fin 8
  continuity : Bool
  qualification : QualPeriod
  deriving DecidableEq, Repr

/-- The operands of REQUEST as its payload carries them (09 R160): a fallback divider or a lease period of 0 is absent. -/
structure RequestArgs where
  line : Line
  f : Nat
  tol : Nat
  policy : Policy
  fd : Nat
  lease : Nat
  align : Option Handle
  deriving DecidableEq, Repr

/-- The operands of RETUNE (09 R161). -/
structure RetuneArgs where
  handle : Option Handle
  f : Nat
  tol : Nat
  allowGap : Bool
  deriving DecidableEq, Repr

/-- The operands of WRITE_PLAN (10 section 10.3): a settle time of 0 is absent. -/
structure PlanArgs where
  entry : Nat
  r : Nat
  n : Nat
  p : Nat
  e : Nat
  l : Nat
  timed : Bool
  settle : Nat
  deriving DecidableEq, Repr

/-- A frame after its start byte: the head, the payload (whose length is the length byte) and the check byte (Table 9-1). -/
structure RawFrame where
  head : Byte
  payload : List Byte
  check : Byte
  deriving DecidableEq, Repr

/-- A slot request as its frame carries it, without the slot and the tag (Table 9-4). -/
inductive SlotReq where
  | hello (keep : Bool)
  | request (args : RequestArgs)
  | retune (args : RetuneArgs)
  | release (handle : Option Handle)
  | renew (handle : Option Handle) (period : Nat)
  | query (line : Option Line)
  | notices
  | ack (place : Place) (kind : NoticeKind) (seq : Nat)
  deriving DecidableEq, Repr

/-- The commands and events of the card, one constructor for each row of spec/opcode_table.json.
A handle operand is `none` where the port byte is 0xFF. -/
inductive Instr where
  | hello (slot : SlotIx) (tag : Tag) (keep : Bool)
  | request (slot : SlotIx) (tag : Tag) (args : RequestArgs)
  | retune (slot : SlotIx) (tag : Tag) (args : RetuneArgs)
  | release (slot : SlotIx) (tag : Tag) (handle : Option Handle)
  | renew (slot : SlotIx) (tag : Tag) (handle : Option Handle) (period : Nat)
  | query (slot : SlotIx) (tag : Tag) (line : Option Line)
  | notices (slot : SlotIx) (tag : Tag)
  | ack (slot : SlotIx) (tag : Tag) (place : Place) (kind : NoticeKind) (seq : Nat)
  | linkError (slot : SlotIx) (frame : RawFrame)
  | frameRefusedBusy (slot : SlotIx) (frame : RawFrame)
  | frameGapTimeout (slot : SlotIx)
  | framingErrorDiscard (slot : SlotIx)
  | answerSent (slot : SlotIx)
  | busyAnswerSent (slot : SlotIx)
  | presentAsserted (slot : SlotIx)
  | slotLoss (slot : SlotIx)
  | identify
  | setStation (rate : Nat)
  | setReference (ref : Ref) (nominal : Nat) (enabled : Bool)
  | setPriority (first second third : Ref) (mode : SelMode) (delay : Nat)
  | setQualify (period : QualPeriod)
  | writePlan (args : PlanArgs)
  | erasePlan (entry : Nat)
  | readPlan (entry : Nat)
  | setLimits (acquire holdover : Nat)
  | readReferences
  | readLoop (loop : Nat)
  | readPort (port : Nat)
  | readGrant (port : Option Nat)
  | readNotices (slotNumber : Nat)
  | readAttention
  | ackAttention (cause : Cause)
  | readCause
  | forceRetire (handle : Option Handle)
  | clearLoop (loop : Nat)
  | holdOn (allowAcks : Bool)
  | holdOff (allowAcks : Bool)
  | setContinuity (on : Bool)
  | restart
  | commandFormError (bytes : List Byte)
  | loopWindow (k : LoopIx) (e : WindowError)
  | settleTimerExpiry (k : LoopIx)
  | acquireTimeout (k : LoopIx)
  | holdoverExpired (k : LoopIx)
  | lockGained (k : LoopIx)
  | lockLost (k : LoopIx)
  | holdoverEntered (k : LoopIx)
  | holdoverEnded (k : LoopIx)
  | stasisBegins (p : PortIx)
  | portSwitchCompletes (p : PortIx)
  | groupRollover (g : GroupIx)
  | switchCompletion (p : PortIx)
  | switchVoid (p : PortIx)
  | leaseExpiry (p : PortIx)
  | referenceWindow (ref : Ref) (e : WindowError)
  | qualificationTimerExpiry (ref : Ref)
  | restoreTimerExpiry
  | supplyApplied (jumpers : Jumpers)
  | supplyTrip
  | supplyRecovery (jumpers : Jumpers)
  | xoSettleExpiry
  | restartTimerExpiry
  | panelRestart
  | panelRestartRelease
  | chassisReset
  | chassisResetRelease
  | requestByteReceived (slot : SlotIx) (byte : Byte) (framingError : Bool)
  | writeTransfer (bytes : List Byte)
  deriving DecidableEq, Repr

end Sys2Proof
end

