-- ==== Sys2Proof/Decode.lean ====
section
/-! DEFINITION. The wire: byte order, codes, the CRC-8, link frames and maintenance commands, decoded and encoded; and decodeTableWord, which answers none since no row of the table has bits. -/

namespace Sys2Proof

/-! ### Byte order (09 R155, 10 R175: most significant byte first) -/

/-- The byte of a whole number: its value modulo 256. -/
def toByte (n : Nat) : Byte := BitVec.ofNat 8 n

/-- Two bytes, most significant first. -/
def be16 (n : Nat) : List Byte := [toByte (n / 256), toByte n]

/-- Four bytes, most significant first. -/
def be32 (n : Nat) : List Byte := [toByte (n / 16777216), toByte (n / 65536), toByte (n / 256), toByte n]

/-- The number two bytes spell, most significant first. -/
def num16 (a b : Byte) : Nat := a.toNat * 256 + b.toNat

/-- The number four bytes spell, most significant first. -/
def num32 (a b c d : Byte) : Nat := ((a.toNat * 256 + b.toNat) * 256 + c.toNat) * 256 + d.toNat

/-! ### CRC-8 (09 R155) -/

/-- One shift of the CRC register: polynomial x^8 + x^2 + x + 1. -/
def crcShift (c : Byte) : Byte := if c.msb then (c <<< 1) ^^^ 0x07#8 else c <<< 1

/-- One byte into the CRC register, its bits most significant first. -/
def crcByte (c b : Byte) : Byte :=
  crcShift (crcShift (crcShift (crcShift (crcShift (crcShift (crcShift (crcShift (c ^^^ b))))))))

/-- The check byte over a list of bytes: the register preset to 0xFF, its final value without inversion. -/
def crc8 (bytes : List Byte) : Byte := bytes.foldl crcByte 0xFF#8

/-! ### Codes (Table 9-2 and 10 R175) -/

def codeBool (b : Bool) : Nat := if b then 1 else 0

def parseBool (b : Byte) : Option Bool :=
  match b.toNat with
  | 0 => some false
  | 1 => some true
  | _ => none

def Line.code : Line → Nat
  | .a => 0
  | .b => 1

def parseLine (b : Byte) : Option Line :=
  match b.toNat with
  | 0 => some .a
  | 1 => some .b
  | _ => none

def Policy.code : Policy → Nat
  | .fallback => 0
  | .stop => 1
  | .keep => 2

def parsePolicy (b : Byte) : Option Policy :=
  match b.toNat with
  | 0 => some .fallback
  | 1 => some .stop
  | 2 => some .keep
  | _ => none

def Place.code : Place → Nat
  | .slot => 0
  | .lineA => 1
  | .lineB => 2

def parsePlace (b : Byte) : Option Place :=
  match b.toNat with
  | 0 => some .slot
  | 1 => some .lineA
  | 2 => some .lineB
  | _ => none

/-- The position of a port kind in Table 8-1, which is its code in Table 9-2. -/
def PortKind.index : PortKind → Fin 9
  | .ready => 0
  | .degraded => 1
  | .restored => 2
  | .holdover => 3
  | .rescued => 4
  | .stranded => 5
  | .retuned => 6
  | .retuneFailed => 7
  | .retired => 8

def NoticeKind.code : NoticeKind → Nat
  | .port k => k.index.val
  | .slot .restarted => 9
  | .slot .continued => 10

def parseNoticeKind (b : Byte) : Option NoticeKind :=
  match b.toNat with
  | 0 => some (.port .ready)
  | 1 => some (.port .degraded)
  | 2 => some (.port .restored)
  | 3 => some (.port .holdover)
  | 4 => some (.port .rescued)
  | 5 => some (.port .stranded)
  | 6 => some (.port .retuned)
  | 7 => some (.port .retuneFailed)
  | 8 => some (.port .retired)
  | 9 => some (.slot .restarted)
  | 10 => some (.slot .continued)
  | _ => none

def Ref.code : Ref → Nat
  | .xo => 0
  | .refa => 1
  | .refb => 2

def parseRef (b : Byte) : Option Ref :=
  match b.toNat with
  | 0 => some .xo
  | 1 => some .refa
  | 2 => some .refb
  | _ => none

def SelMode.code : SelMode → Nat
  | .revertive => 0
  | .nonrevertive => 1

def parseSelMode (b : Byte) : Option SelMode :=
  match b.toNat with
  | 0 => some .revertive
  | 1 => some .nonrevertive
  | _ => none

def QualPeriod.code : QualPeriod → Nat
  | .long => 0
  | .short => 1

def parseQualPeriod (b : Byte) : Option QualPeriod :=
  match b.toNat with
  | 0 => some .long
  | 1 => some .short
  | _ => none

/-- The position of an attention cause in Table 8-3, which is its code (10 R175). -/
def Cause.index : Cause → Fin 5
  | .stationNone => 0
  | .loopFailed => 1
  | .grantStranded => 2
  | .stationSwitched => 3
  | .referenceQualified => 4

def parseCause (b : Byte) : Option Cause :=
  match b.toNat with
  | 0 => some .stationNone
  | 1 => some .loopFailed
  | 2 => some .grantStranded
  | 3 => some .stationSwitched
  | 4 => some .referenceQualified
  | _ => none

/-- The two bytes of a handle (Table 9-2); no handle is port byte 0xFF. -/
def handleBytes (h : Option Handle) : List Byte :=
  match h with
  | some h => [toByte h.port.val, toByte h.gen.val]
  | none => [0xFF#8, 0x00#8]

/-- A handle field (09 R157): a generation byte above 15 and a port byte 24..254 are undefined; with port byte 0xFF there is no handle,
whichever generation 0..15 stands beside it (log 13). -/
def parseHandle (p g : Byte) : Option (Option Handle) :=
  if hg : g.toNat < 16 then
    if p.toNat = 255 then some none
    else if hp : p.toNat < 24 then some (some { port := ⟨p.toNat, hp⟩, gen := ⟨g.toNat, hg⟩ })
    else none
  else none

/-! ### Link frames (Table 9-1) -/

/-- The request kind code of a slot request (Table 9-2). -/
def SlotReq.kind : SlotReq → Nat
  | .hello _ => 1
  | .request _ => 2
  | .retune _ => 3
  | .release _ => 4
  | .renew _ _ => 5
  | .query _ => 6
  | .notices => 7
  | .ack _ _ _ => 8

/-- The payload of a slot request (09 R160 to R166). -/
def SlotReq.payload : SlotReq → List Byte
  | .hello keep => [toByte (codeBool keep)]
  | .request a =>
    [toByte a.line.code] ++ be32 a.f ++ be16 a.tol ++ [toByte a.policy.code] ++ be16 a.fd ++ be16 a.lease ++ handleBytes a.align
  | .retune a => handleBytes a.handle ++ be32 a.f ++ be16 a.tol ++ [toByte (codeBool a.allowGap)]
  | .release h => handleBytes h
  | .renew h period => handleBytes h ++ be16 period
  | .query none => []
  | .query (some line) => [toByte line.code]
  | .notices => []
  | .ack place kind seq => [toByte place.code, toByte kind.code, toByte seq]

/-- A payload of no bytes read. -/
def readNone {α : Type} (x : α) (payload : List Byte) : Option α :=
  match payload with
  | [] => some x
  | _ :: _ => none

/-- A payload of one byte read. -/
def readOne {α : Type} (f : Byte → Option α) (payload : List Byte) : Option α :=
  match payload with
  | [a] => f a
  | _ => none

/-- A payload of two bytes read. -/
def readTwo {α : Type} (f : Byte → Byte → Option α) (payload : List Byte) : Option α :=
  match payload with
  | [a, b] => f a b
  | _ => none

/-- A payload of four bytes read. -/
def readFour {α : Type} (f : Byte → Byte → Byte → Byte → Option α) (payload : List Byte) : Option α :=
  match payload with
  | [a, b, c, d] => f a b c d
  | _ => none

/-- REQUEST's payload read (09 R160). -/
def readRequestArgs (payload : List Byte) : Option SlotReq :=
  match payload with
  | [ln, f3, f2, f1, f0, t1, t0, po, d1, d0, l1, l0, hp, hg] =>
    match parseLine ln, parsePolicy po, parseHandle hp hg with
    | some line, some policy, some align =>
      some (.request { line := line, f := num32 f3 f2 f1 f0, tol := num16 t1 t0, policy := policy, fd := num16 d1 d0,
                       lease := num16 l1 l0, align := align })
    | _, _, _ => none
  | _ => none

/-- RETUNE's payload read (09 R161). -/
def readRetuneArgs (payload : List Byte) : Option SlotReq :=
  match payload with
  | [hp, hg, f3, f2, f1, f0, t1, t0, ag] =>
    match parseHandle hp hg, parseBool ag with
    | some handle, some allowGap =>
      some (.retune { handle := handle, f := num32 f3 f2 f1 f0, tol := num16 t1 t0, allowGap := allowGap })
    | _, _ => none
  | _ => none

/-- QUERY's payload read (09 R163). -/
def readQuery (payload : List Byte) : Option SlotReq :=
  match payload with
  | [] => some (.query none)
  | [ln] => (parseLine ln).map (fun l => .query (some l))
  | _ => none

/-- ACK's payload read (09 R165). -/
def readAck (payload : List Byte) : Option SlotReq :=
  match payload with
  | [pl, k, sq] =>
    match parsePlace pl, parseNoticeKind k with
    | some place, some kind => some (.ack place kind sq.toNat)
    | _, _ => none
  | _ => none

/-- The payload of a frame read as a request of the kind given: none when the kind is undefined, the length is not one Table 9-4 allows,
or an enumerated field holds an undefined code (09 R157 step 2). -/
def parseRequest (kind : Nat) (payload : List Byte) : Option SlotReq :=
  match kind with
  | 1 => readOne (fun k => (parseBool k).map .hello) payload
  | 2 => readRequestArgs payload
  | 3 => readRetuneArgs payload
  | 4 => readTwo (fun hp hg => (parseHandle hp hg).map .release) payload
  | 5 => readFour (fun hp hg p1 p0 => (parseHandle hp hg).map (fun h => .renew h (num16 p1 p0))) payload
  | 6 => readQuery payload
  | 7 => readNone .notices payload
  | 8 => readAck payload
  | _ => none

/-- A head byte: the tag in bits 7 to 5, a request kind or a status in bits 4 to 0 (Table 9-1). -/
def headByte (tag : Tag) (low : Nat) : Byte := toByte (tag.val * 32 + low)

/-- The tag of a head byte. -/
def headTag (head : Byte) : Tag := ⟨head.toNat / 32, by have := head.isLt; omega⟩

/-- The request kind of a head byte. -/
def headKind (head : Byte) : Nat := head.toNat % 32

/-- The bytes the check byte covers: head, length and payload (09 R155). -/
def coveredBytes (head : Byte) (payload : List Byte) : List Byte := head :: toByte payload.length :: payload

/-- A frame after its start byte, with a good check byte. -/
def goodFrame (head : Byte) (payload : List Byte) : RawFrame :=
  { head := head, payload := payload, check := crc8 (coveredBytes head payload) }

/-- Whether the check byte of a frame matches (09 R157 step 1). -/
def RawFrame.checkOk (f : RawFrame) : Bool := f.check == crc8 (coveredBytes f.head f.payload)

/-- The bytes of a frame after its start byte. -/
def RawFrame.tail (f : RawFrame) : List Byte := coveredBytes f.head f.payload ++ [f.check]

/-- The frame in which a slot sends a request with a tag. -/
def requestFrame (tag : Tag) (r : SlotReq) : RawFrame := goodFrame (headByte tag r.kind) r.payload

/-- The start byte of every frame (Table 9-1). -/
def startByte : Byte := 0xA5#8

/-- Every byte of an answer frame carrying a status code and a payload. -/
def answerBytes (tag : Tag) (status : Nat) (payload : List Byte) : List Byte :=
  startByte :: (goodFrame (headByte tag status) payload).tail

/-- The bytes received after a start byte read as a frame, once the check byte that the length calls for is among them (09 R156). -/
def frameOf (bytes : List Byte) : Option RawFrame :=
  match bytes with
  | head :: len :: rest =>
    if rest.length = len.toNat + 1 then
      match rest.getLast? with
      | some check => some { head := head, payload := rest.dropLast, check := check }
      | none => none
    else none
  | _ => none

/-! ### Maintenance commands (Table 10-3) -/

/-- SET_REFERENCE's payload read. -/
def readSetReference (payload : List Byte) : Option Instr :=
  match payload with
  | [r, a, b, c, d, en] =>
    match parseRef r, parseBool en with
    | some ref, some enabled => some (.setReference ref (num32 a b c d) enabled)
    | _, _ => none
  | _ => none

/-- SET_PRIORITY's payload read. -/
def readSetPriority (payload : List Byte) : Option Instr :=
  match payload with
  | [a, b, c, m, d1, d0] =>
    match parseRef a, parseRef b, parseRef c, parseSelMode m with
    | some r1, some r2, some r3, some mode => some (.setPriority r1 r2 r3 mode (num16 d1 d0))
    | _, _, _, _ => none
  | _ => none

/-- WRITE_PLAN's payload read. -/
def readWritePlan (payload : List Byte) : Option Instr :=
  match payload with
  | [en, r, n1, n0, p, e, l, m, s1, s0] =>
    (parseBool m).map (fun timed =>
      .writePlan { entry := en.toNat, r := r.toNat, n := num16 n1 n0, p := p.toNat, e := e.toNat, l := l.toNat,
                   timed := timed, settle := num16 s1 s0 })
  | _ => none

/-- READ_GRANT's payload read: one port, or the sweep (10 R178). -/
def readReadGrant (payload : List Byte) : Option Instr :=
  match payload with
  | [] => some (.readGrant none)
  | [p] => some (.readGrant (some p.toNat))
  | _ => none

/-- HOLD's payload read (10 R180). -/
def readHold (on acks : Byte) : Option Instr :=
  match parseBool on, parseBool acks with
  | some true, some acks => some (.holdOn acks)
  | some false, some acks => some (.holdOff acks)
  | _, _ => none

/-- The payload of a command read by its code: none when the code is undefined, the length is not allowed, or an enumerated field holds an
undefined code (10 R172). -/
def parseCommandPayload (code : Nat) (payload : List Byte) : Option Instr :=
  match code with
  | 0x01 => readNone .identify payload
  | 0x10 => readFour (fun a b c d => some (.setStation (num32 a b c d))) payload
  | 0x11 => readSetReference payload
  | 0x12 => readSetPriority payload
  | 0x13 => readOne (fun q => (parseQualPeriod q).map .setQualify) payload
  | 0x20 => readWritePlan payload
  | 0x21 => readOne (fun en => some (.erasePlan en.toNat)) payload
  | 0x22 => readOne (fun en => some (.readPlan en.toNat)) payload
  | 0x30 => readFour (fun a1 a0 h1 h0 => some (.setLimits (num16 a1 a0) (num16 h1 h0))) payload
  | 0x40 => readNone .readReferences payload
  | 0x41 => readOne (fun k => some (.readLoop k.toNat)) payload
  | 0x42 => readOne (fun p => some (.readPort p.toNat)) payload
  | 0x43 => readReadGrant payload
  | 0x44 => readOne (fun s => some (.readNotices s.toNat)) payload
  | 0x45 => readNone .readAttention payload
  | 0x46 => readOne (fun c => (parseCause c).map .ackAttention) payload
  | 0x47 => readNone .readCause payload
  | 0x50 => readTwo (fun hp hg => (parseHandle hp hg).map .forceRetire) payload
  | 0x51 => readOne (fun k => some (.clearLoop k.toNat)) payload
  | 0x52 => readTwo readHold payload
  | 0x60 => readOne (fun c => (parseBool c).map .setContinuity) payload
  | 0x61 => readNone .restart payload
  | _ => none

/-- The form checks of the maintenance port (10 R172) on the bytes of a write transfer: the command, or none where one of them fails. -/
def parseCommand (bytes : List Byte) : Option Instr :=
  match bytes with
  | code :: len :: payload => if payload.length = len.toNat then parseCommandPayload code.toNat payload else none
  | _ => none

/-- The code and the payload with which the controller writes a maintenance command (Table 10-3, section 10.3); none for every other row. -/
def commandParts (c : Instr) : Option (Nat × List Byte) :=
  match c with
  | .identify => some (0x01, [])
  | .setStation rate => some (0x10, be32 rate)
  | .setReference ref nominal enabled => some (0x11, [toByte ref.code] ++ be32 nominal ++ [toByte (codeBool enabled)])
  | .setPriority a b c mode delay =>
    some (0x12, [toByte a.code, toByte b.code, toByte c.code, toByte mode.code] ++ be16 delay)
  | .setQualify q => some (0x13, [toByte q.code])
  | .writePlan a =>
    some (0x20, [toByte a.entry, toByte a.r] ++ be16 a.n ++ [toByte a.p, toByte a.e, toByte a.l, toByte (codeBool a.timed)] ++ be16 a.settle)
  | .erasePlan e => some (0x21, [toByte e])
  | .readPlan e => some (0x22, [toByte e])
  | .setLimits a h => some (0x30, be16 a ++ be16 h)
  | .readReferences => some (0x40, [])
  | .readLoop k => some (0x41, [toByte k])
  | .readPort p => some (0x42, [toByte p])
  | .readGrant none => some (0x43, [])
  | .readGrant (some p) => some (0x43, [toByte p])
  | .readNotices s => some (0x44, [toByte s])
  | .readAttention => some (0x45, [])
  | .ackAttention c => some (0x46, [toByte c.index.val])
  | .readCause => some (0x47, [])
  | .forceRetire h => some (0x50, handleBytes h)
  | .clearLoop k => some (0x51, [toByte k])
  | .holdOn acks => some (0x52, [toByte 1, toByte (codeBool acks)])
  | .holdOff acks => some (0x52, [toByte 0, toByte (codeBool acks)])
  | .setContinuity on => some (0x60, [toByte (codeBool on)])
  | .restart => some (0x61, [])
  | _ => none

/-- The bytes of the write transfer that carries a maintenance command (Table 10-1). -/
def commandBytes (c : Instr) : Option (List Byte) :=
  (commandParts c).map (fun cp => toByte cp.1 :: toByte cp.2.length :: cp.2)

/-- The command that a table word spells: no row of spec/opcode_table.json has bits, so no word spells one. -/
def decodeTableWord (_nbits _w : Nat) : Option Instr := none

end Sys2Proof
end

