-- ==== Sys2Proof/Machine/State.lean ====
section
/-! DEFINITION. The state of the card as plain data, one structure for each functional block of Table 1-1, the queue of waiting commands, and the state after reset. -/

namespace Sys2Proof.Machine

/-! ### Restart logic (11 R183) -/

/-- Start-up states (Table 11-2). -/
inductive StartUp where
  | running | supplyHeld | settling | restarting
  deriving DecidableEq, Repr

/-- The reset cause record: a set, each cause in it or not (11 R188). -/
structure Causes where
  power : Bool := false
  supply : Bool := false
  panel : Bool := false
  command : Bool := false
  chassis : Bool := false
  continued : Bool := false
  deriving DecidableEq, Repr

/-- Restart logic fields (Table 11-1), with the restart requests held by the panel input and the chassis reset line (11 R186, R187). -/
structure RestartLogic where
  startUp : StartUp
  settleTimer : Option Nat
  restartTimer : Option Nat
  jumpers : Jumpers
  continuity : Bool
  causes : Causes
  panelHeld : Bool
  chassisHeld : Bool
  deriving DecidableEq, Repr

/-! ### Reference monitors and station selector (07 R126, R132) -/

/-- Reference states (Table 7-2). -/
inductive RefState where
  | disabled | misfit | absent | outOfRange | qualifying | qualified
  deriving DecidableEq, Repr

/-- Reference record fields (Table 7-1). -/
structure RefRec where
  enabled : Bool
  nominal : Nat
  preDivider : Option Nat
  state : RefState
  qualTimer : Option Nat
  lastError : Option WindowError
  deriving DecidableEq, Repr

/-- A restore candidate with the remaining time of the restore timer in ms (07 R132). -/
structure Restore where
  candidate : Ref
  remaining : Nat
  deriving DecidableEq, Repr

/-- The three reference records, the station rate, the qualification period and the station selector. -/
structure StationBlock where
  refs : Vector RefRec 3
  rate : Nat
  period : QualPeriod
  station : Option Ref
  priority : List Ref
  mode : SelMode
  restoreDelay : Nat
  restore : Option Restore
  deriving DecidableEq, Repr

/-! ### Rate plan store (02 R27) -/

/-- The derived status of an entry that is not EMPTY (02 R31). -/
inductive PlanStatus where
  | valid | outOfBand | disabled
  deriving DecidableEq, Repr

/-- Plan entry fields (Table 2-1). -/
structure PlanEntry where
  r : Nat
  n : Nat
  p : Nat
  e : Nat
  l : Nat
  mode : LockMode
  status : PlanStatus
  deriving DecidableEq, Repr

/-! ### Loop controller (03 R43) -/

/-- Loop states (Table 3-2). -/
inductive LoopState where
  | idle | waiting | acquiring | tracking | locked | holdover
  deriving DecidableEq, Repr

/-- Failure causes (Table 3-1). -/
inductive FailCause where
  | acquireTimeout | holdoverExpired
  deriving DecidableEq, Repr

/-- The three kinds of loop timer (03 section 3.4). -/
inductive TimerKind where
  | acquire | settle | holdover
  deriving DecidableEq, Repr

/-- A loop timer with its remaining time in ms. -/
structure LoopTimer where
  kind : TimerKind
  remaining : Nat
  deriving DecidableEq, Repr

/-- The plan entry a loop runs on, with its mode and settle time as read at start (Table 3-1). -/
structure Run where
  entry : EntryIx
  mode : LockMode
  deriving DecidableEq, Repr

/-- Loop record fields (Table 3-1). The loop is quarantined exactly when `failed` holds a cause. A loop holds at most one timer. -/
structure LoopRec where
  state : LoopState
  failed : Option FailCause
  run : Option Run
  good : Nat
  lastError : Option WindowError
  timer : Option LoopTimer
  deriving DecidableEq, Repr

/-- The lock events that wait to be taken (Table 3-4); a loop failure is taken in the action that raises it (03 R66). -/
inductive LockEventKind where
  | gained | lost | holdoverEntered | holdoverEnded
  deriving DecidableEq, Repr

/-- A lock event with the loop state it carries (03 section 3.6). -/
structure LockEvent where
  kind : LockEventKind
  state : LoopState
  deriving DecidableEq, Repr

/-- The six loops, the two limits (ms and s), and each loop's lock events raised and not yet taken, oldest first (03 R65). -/
structure LoopController where
  loops : Vector LoopRec 6
  acquireLimit : Nat
  holdoverLimit : Nat
  events : Vector (List LockEvent) 6
  deriving DecidableEq, Repr

/-! ### Port switch unit (04 R71, R80) -/

/-- A port's source (Table 4-1). -/
inductive Source where
  | none
  | loop (k : LoopIx) (d : Nat) (group : Option GroupIx)
  | fallback (fd : Nat)
  deriving DecidableEq, Repr

/-- The fields a port holds while SWITCHING (Table 4-1). -/
structure Switching where
  target : Source
  stasis : Bool
  lost : Bool
  deriving DecidableEq, Repr

/-- From where the counts of a divider are reckoned: from no beginning yet; from the `n`-th beginning of a count (04 R74, R80); or, at the
takeover of a pending value, from the end of a whole number of counts of the value that was in force (04 R82). Dividers that began a count
together hold the same one (04 R81). -/
inductive CountOrigin where
  | unbegun
  | begun (n : Nat)
  | takeover (before : CountOrigin) (value n : Nat)
  deriving DecidableEq, Repr

/-- Port record (Table 4-1): SWITCHING exactly when `switching` holds a value. `count` is the position in the count of the divider that drives
the line, in half-periods of its input (04 R72), at the last event that set it (04 R74); `origin` is from where that divider counts on. -/
structure PortRec where
  current : Source
  switching : Option Switching
  count : Nat
  origin : CountOrigin
  deriving DecidableEq, Repr

/-- A group divider (04 R80). `stopped` is set when its loop goes IDLE; `origin` is from where it counts. -/
structure GroupDivider where
  loop : LoopIx
  value : Nat
  pendingValue : Option Nat
  count : Nat
  stopped : Bool
  origin : CountOrigin
  deriving DecidableEq, Repr

/-- What a port reports to the grant engine (04 R79). -/
inductive Report where
  | completion (source : Source)
  | void (target : Source)
  deriving DecidableEq, Repr

/-- The 24 ports, the group dividers and each port's reports not yet taken, oldest first; with the model's own counts of the moments at which
a line's phase was asked for and of the beginnings of counts, and whether the requests now made fall in one moment (log 6, 24). -/
structure SwitchUnit where
  ports : Vector PortRec 24
  dividers : Vector (Option GroupDivider) 8
  reports : Vector (List Report) 24
  draws : Nat
  sameMoment : Bool
  starts : Nat
  deriving DecidableEq, Repr

/-! ### Grant engine (01 R1, R5, R13; 06 R107) -/

/-- Grant states (01 section 1.11). -/
inductive GrantState where
  | pending | active | degraded | stranded
  deriving DecidableEq, Repr

/-- A grant's CURRENT binding (Table 1-5). -/
structure GrantBinding where
  loop : LoopIx
  entry : EntryIx
  d : Nat
  deriving DecidableEq, Repr

/-- The cut-over of a NEW_LOOP retune (Table 6-1). -/
inductive CutOver where
  | awaitingLock | inFlight
  deriving DecidableEq, Repr

/-- A retune record (Table 6-1). -/
inductive Retune where
  | sameLoop (d f tol : Nat)
  | newLoop (target : GrantBinding) (f tol : Nat) (cut : CutOver)
  deriving DecidableEq, Repr

/-- A lease: its period in s and its remaining time in ms (06 R122). -/
structure Lease where
  period : Nat
  remaining : Nat
  deriving DecidableEq, Repr

/-- Grant record (Table 1-5); its handle is its port and `gen`. -/
structure Grant where
  gen : Mod16
  state : GrantState
  f : Nat
  tol : Nat
  policy : Policy
  fd : Option Nat
  lease : Option Lease
  binding : Option GrantBinding
  group : Option GroupIx
  retune : Option Retune
  mark : Bool
  deriving DecidableEq, Repr

/-- The role of a binding (01 R5). -/
inductive Role where
  | current | retuneTarget
  deriving DecidableEq, Repr

/-- A binding on a loop's list (01 R5). -/
structure Binding where
  handle : Handle
  d : Nat
  role : Role
  deriving DecidableEq, Repr

/-- A group record (01 R13): the loop, the group divider G and the members in join order. -/
structure Group where
  loop : LoopIx
  g : Nat
  members : List Handle
  deriving DecidableEq, Repr

/-- The grant table, the binding lists, the group table and the generation counters. -/
structure GrantEngine where
  grants : Vector (Option Grant) 24
  lists : Vector (List Binding) 6
  groups : Vector (Option Group) 8
  generations : Vector Mod16 24
  deriving DecidableEq, Repr

/-! ### Notice unit (08 R141, R142) -/

/-- A notice kind's pending flag and sequence number. -/
structure Notice where
  pending : Bool
  seq : Mod16
  deriving DecidableEq, Repr

/-- The reasons RETIRED carries (08 R141). -/
inductive RetireReason where
  | leaseExpired | forced
  deriving DecidableEq, Repr

/-- The optional fields of the RETIRED kind (08 R141). -/
structure Retired where
  reason : RetireReason
  gen : Mod16
  deriving DecidableEq, Repr

/-- A port notice record: the nine kinds in the order of Table 8-1, and RETIRED's fields. -/
structure PortNotices where
  kinds : Vector Notice 9
  retired : Option Retired
  deriving DecidableEq, Repr

/-- A slot notice record. -/
structure SlotNotices where
  restarted : Notice
  continued : Notice
  deriving DecidableEq, Repr

/-- The notice unit. -/
structure NoticeUnit where
  ports : Vector PortNotices 24
  slots : Vector SlotNotices 12
  deriving DecidableEq, Repr

/-! ### Maintenance port (08 R149, 10 R171 to R180) -/

/-- The attention latch: occurrence counts in the order of Table 8-3 (a cause is pending exactly when its count is above 0) and the latched cause. -/
structure Attention where
  counts : Vector Nat 5
  latched : Option Cause
  deriving DecidableEq, Repr

/-- Maintenance statuses (Table 10-2); NOT_READY is what a read of an empty buffer returns. -/
inductive MaintStatus where
  | ok | inUse | badValue | notQuarantined | stale | activeReference
  deriving DecidableEq, Repr

/-- A response in the response buffer (Table 10-1). -/
structure Response where
  status : MaintStatus
  payload : List Byte
  deriving DecidableEq, Repr

/-- The maintenance port. -/
structure MaintPort where
  attention : Attention
  hold : Bool
  allowAcks : Bool
  waiting : Option (List Byte)
  response : Option Response
  deriving DecidableEq, Repr

/-! ### Slot links (09 R157) -/

/-- The receiver: HUNTING, or RECEIVING with the bytes so far after the start byte. -/
inductive Receiver where
  | hunting
  | receiving (bytes : List Byte)
  deriving DecidableEq, Repr

/-- An answer frame with the number of its bytes already sent. -/
structure Transmission where
  frame : List Byte
  sent : Nat
  deriving DecidableEq, Repr

/-- Link record (Table 9-3): WORKING exactly when a current answer is present. -/
structure LinkRec where
  listening : Bool
  receiver : Receiver
  current : Option Transmission
  busyTag : Option Tag
  busyTx : Option Transmission
  deriving DecidableEq, Repr

/-! ### The card -/

/-- The card's state: its blocks (Table 1-1), the PRESENT lines, and the queue of the commands that wait, first in, first out. -/
structure State where
  restart : RestartLogic
  present : Vector Bool 12
  station : StationBlock
  plan : Vector (Option PlanEntry) 32
  loops : LoopController
  switch : SwitchUnit
  engine : GrantEngine
  notices : NoticeUnit
  maint : MaintPort
  links : Vector LinkRec 12
  pending : List Instr
  deriving DecidableEq, Repr

/-- Faults: the spec gives the card none that stops it, so no step raises one (safe: nothing is hidden behind a fault). -/
inductive Fault where
  deriving DecidableEq, Repr

/-- Refusals. -/
inductive Refusal where
  /-- Raised by an arm of exec whose row has no meaning yet; no arm raises it now (safe: the model stops where the card goes on). -/
  | notModelled (mnemonic : String)
  deriving DecidableEq, Repr

/-- The three outcomes of a step of the card. -/
abbrev Outcome := Host.Outcome State Fault Refusal

/-! ### Values after a reset, block by block -/

/-- A loop that is IDLE and not quarantined (03 R47, R70). -/
def LoopRec.idle : LoopRec :=
  { state := .idle, failed := none, run := none, good := 0, lastError := none, timer := none }

/-- The loop controller after power-up (Table 3-5). -/
def LoopController.powerUp : LoopController :=
  { loops := fill 6 LoopRec.idle, acquireLimit := 250, holdoverLimit := 60, events := fill 6 [] }

/-- A port that is OFF (Table 4-2). -/
def PortRec.off : PortRec := { current := .none, switching := none, count := 0, origin := .unbegun }

/-- The port switch unit after power-up (Table 4-2). -/
def SwitchUnit.powerUp : SwitchUnit :=
  { ports := fill 24 PortRec.off, dividers := fill 8 none, reports := fill 24 [], draws := 0, sameMoment := false, starts := 0 }

/-- The grant engine after power-up (Table 1-10). -/
def GrantEngine.powerUp : GrantEngine :=
  { grants := fill 24 none, lists := fill 6 [], groups := fill 8 none, generations := fill 24 0 }

/-- A notice kind that is not pending with sequence number 0. -/
def Notice.clear : Notice := { pending := false, seq := 0 }

/-- The notice unit after its clearing by a power-up, supply reset or module restart (08 R153). -/
def NoticeUnit.powerUp : NoticeUnit :=
  { ports := fill 24 { kinds := fill 9 Notice.clear, retired := none },
    slots := fill 12 { restarted := Notice.clear, continued := Notice.clear } }

/-- The attention latch after power-up (Table 8-5). -/
def Attention.powerUp : Attention := { counts := fill 5 0, latched := none }

/-- The maintenance port after power-up (08 R153, 10 R174, R180). -/
def MaintPort.powerUp : MaintPort :=
  { attention := Attention.powerUp, hold := false, allowAcks := false, waiting := none, response := none }

/-- A link that is mute, IDLE and hunting (Table 9-5). -/
def LinkRec.mute : LinkRec :=
  { listening := false, receiver := .hunting, current := none, busyTag := none, busyTx := none }

/-- The references and selector at the end of the power-up settle (Table 7-5): XO QUALIFIED and the station reference, REFA and REFB ABSENT. -/
def StationBlock.powerUp (period : QualPeriod) : StationBlock :=
  { refs := #v[{ enabled := true, nominal := 40000000, preDivider := some 40, state := .qualified, qualTimer := none, lastError := none },
               { enabled := true, nominal := 10000000, preDivider := some 10, state := .absent, qualTimer := none, lastError := none },
               { enabled := true, nominal := 10000000, preDivider := some 10, state := .absent, qualTimer := none, lastError := none }],
    rate := 1000000, period := period, station := some .xo, priority := [.refa, .refb, .xo], mode := .nonrevertive,
    restoreDelay := 10, restore := none }

/-- The jumpers of the model's reset: all removed (12 Table 12-7; DESIGN CHOICE, log 2). -/
def Jumpers.removed : Jumpers := { address := 0, continuity := false, qualification := .long }

/-- The card right after reset: the end of a power-up (11 R184) with all jumpers removed and no slot card fitted (log 1, 2, 3). -/
def State.reset : State :=
  { restart := { startUp := .running, settleTimer := none, restartTimer := none, jumpers := Jumpers.removed,
                 continuity := Jumpers.removed.continuity, causes := { power := true }, panelHeld := false, chassisHeld := false },
    present := fill 12 false,
    station := StationBlock.powerUp Jumpers.removed.qualification,
    plan := fill 32 none,
    loops := LoopController.powerUp,
    switch := SwitchUnit.powerUp,
    engine := GrantEngine.powerUp,
    notices := NoticeUnit.powerUp,
    maint := MaintPort.powerUp,
    links := fill 12 LinkRec.mute,
    pending := [] }

end Sys2Proof.Machine
end

