-- ==== Sys2Proof/Machine/Flags.lean ====
section
/-! DEFINITION. Flags, lines and states that the card derives from its records: each has its one home in the records read here. -/

namespace Sys2Proof.Machine

/-! ### Loops -/

/-- A loop is running in every state but IDLE (03 R44). -/
def LoopRec.running (l : LoopRec) : Bool := l.state != .idle

/-- The loop's output is present: ACQUIRING, TRACKING, LOCKED or HOLDOVER (Table 3-2). -/
def LoopRec.producing (l : LoopRec) : Bool :=
  match l.state with
  | .acquiring => true
  | .tracking => true
  | .locked => true
  | .holdover => true
  | .idle => false
  | .waiting => false

/-- LOCKED or in HOLDOVER: the states in which a grant on the loop may be ACTIVE (Table 1-6). -/
def LoopRec.usable (l : LoopRec) : Bool := l.state == .locked || l.state == .holdover

/-- The timer of a WAITING loop is paused (03 R55, R56). -/
def LoopRec.paused (l : LoopRec) : Bool := l.state == .waiting && l.timer.isSome

/-- The record of loop k. -/
def State.loop (s : State) (k : LoopIx) : LoopRec := rd s.loops.loops k

/-- The running loops in loop number order (02 R37). -/
def State.runningLoops (s : State) : List LoopIx := allLoops.filter (fun k => (s.loop k).running)

/-- The loops running on a plan entry, in loop number order (02 R32, R33). -/
def State.loopsOnEntry (s : State) (i : EntryIx) : List LoopIx :=
  allLoops.filter (fun k => (s.loop k).running && ((s.loop k).run.map Run.entry) == some i)

/-! ### Ports -/

/-- Port states (04 R71). -/
inductive PortState where
  | off | running | switching
  deriving DecidableEq, Repr

/-- A port is SWITCHING while a switch stands, else OFF with current source NONE and RUNNING with any other (04 R71). -/
def PortRec.state (p : PortRec) : PortState :=
  match p.switching, p.current with
  | some _, _ => .switching
  | none, .none => .off
  | none, .loop _ _ _ => .running
  | none, .fallback _ => .running

/-- Whether a port in stasis holds its line low (04 R71). -/
def PortRec.inStasis (p : PortRec) : Bool :=
  match p.switching with
  | some sw => sw.stasis
  | none => false

/-- A source produces no edges (04 R73): FALLBACK while the station reference is NONE, LOOP while its loop is in WAITING or IDLE. -/
def silentSource (loops : Vector LoopRec 6) (station : Option Ref) (src : Source) : Bool :=
  match src with
  | .none => false
  | .fallback _ => station.isNone
  | .loop k _ _ => (rd loops k).state == .waiting || (rd loops k).state == .idle

/-- The alignment group a source names. -/
def Source.group (src : Source) : Option GroupIx :=
  match src with
  | .loop _ _ g => g
  | .none => Option.none
  | .fallback _ => Option.none

/-- The port divider or fallback divider of a source; NONE has none. -/
def Source.divider (src : Source) : Nat :=
  match src with
  | .loop _ d _ => d
  | .fallback fd => fd
  | .none => 0

/-- A source on loop k. -/
def Source.onLoop (src : Source) (k : LoopIx) : Bool :=
  match src with
  | .loop j _ _ => j == k
  | .none => false
  | .fallback _ => false

/-- The port's silent flag (04 R73). -/
def State.silent (s : State) (p : PortIx) : Bool := silentSource s.loops.loops s.station.station (rd s.switch.ports p).current

/-! ### References -/

/-- The index of a reference in its bank. -/
def refIx : Ref → Fin 3
  | .xo => 0
  | .refa => 1
  | .refb => 2

/-- The record of a reference. -/
def StationBlock.ref (b : StationBlock) (r : Ref) : RefRec := rd b.refs (refIx r)

/-- Whether a reference is QUALIFIED. -/
def StationBlock.qualified (b : StationBlock) (r : Ref) : Bool := (b.ref r).state == .qualified

/-! ### Notices and attention -/

/-- The two ports of a slot (section 1.6): index slot × 2, plus 0 for line A or 1 for line B, the slot counted from 0. -/
def portOf (slot : SlotIx) (line : Line) : PortIx :=
  match line with
  | .a => ⟨slot.val * 2, by omega⟩
  | .b => ⟨slot.val * 2 + 1, by omega⟩

/-- The slot of a port. -/
def slotOf (p : PortIx) : SlotIx := ⟨p.val / 2, by omega⟩

/-- Whether any of a port's nine kinds is pending. -/
def PortNotices.anyPending (n : PortNotices) : Bool := n.kinds.toList.any Notice.pending

/-- A slot's ATTN line (08 R145): asserted exactly when one of the slot's twenty kinds is pending. -/
def State.attn (s : State) (slot : SlotIx) : Bool :=
  (rd s.notices.ports (portOf slot .a)).anyPending || (rd s.notices.ports (portOf slot .b)).anyPending ||
  (rd s.notices.slots slot).restarted.pending || (rd s.notices.slots slot).continued.pending

/-- The ALERT line (08 R150): asserted exactly while a cause is latched. -/
def State.alert (s : State) : Bool := s.maint.attention.latched.isSome

/-- A cause is pending exactly when its count is above 0 (08 R149). -/
def Attention.pendingCause (a : Attention) (c : Cause) : Bool := 0 < rd a.counts c.index

/-! ### Links and start-up -/

/-- A link is WORKING exactly while a current answer is present (Table 9-3). -/
def LinkRec.working (l : LinkRec) : Bool := l.current.isSome

/-- The card has finished start-up (11 R183). -/
def State.isRunning (s : State) : Bool := s.restart.startUp == .running

/-- A restart request is held by the panel input or the chassis reset line (11 R186). -/
def RestartLogic.restartHeld (r : RestartLogic) : Bool := r.panelHeld || r.chassisHeld

/-- The grant on a port, if any. -/
def State.grantAt (s : State) (p : PortIx) : Option Grant := rd s.engine.grants p

/-- The live grant a handle names; none when the handle is stale (01 R4). -/
def State.resolve (s : State) (h : Handle) : Option Grant :=
  match s.grantAt h.port with
  | some g => if g.gen = h.gen then some g else none
  | none => none

/-- The number of live grants (10 R177). -/
def State.liveGrants (s : State) : Nat := allPorts.countP (fun p => (s.grantAt p).isSome)

end Sys2Proof.Machine
end

