-- ==== Sys2Proof/Config.lean ====
section
/-! DEFINITION. What the manufacture of one card fixes and the values the spec leaves open: constants without a body, so that no proof can rest on a value of theirs. -/

namespace Sys2Proof

/-- What a divider counts: the output of a loop, or the station reference at the station rate (04 R72). -/
inductive ClockInput where
  | loop (k : LoopIx)
  | station
  deriving DecidableEq, Repr

/-- The half-periods that an input has run through at the `n`-th moment at which a switch request finds a line running (04 R75: "when its line is
low at that moment"). The manual gives no behaviour in clock cycles, so the number is free (log 6). -/
opaque Config.halfPeriods : Nat → ClockInput → Nat

/-- The whole periods of an input by which the counts reckoned from the `n`-th beginning stand ahead of `halfPeriods`; counts repeat, so a later
beginning is a larger lead (04 R74; free, log 6). -/
opaque Config.lead : Nat → ClockInput → Nat

/-- The whole counts of the value that was in force by which the counts of the value taken over at the `n`-th beginning stand further ahead (04 R82;
free, log 6). -/
opaque Config.laps : Nat → Nat

/-- The four bytes the maintenance port sends for a derived frequency above 4,294,967,295 Hz, as a number (02 R35 with Table 10-2 of 10
gives the field four bytes and states no value for such a frequency; log 8). -/
opaque Config.overflowHertz : Nat → BitVec 32

/-- The hardware revision less one: the revision is 1..255, fixed at manufacture (10 R177; log 9). -/
opaque Config.hardwareRevisionLessOne : Fin 255

end Sys2Proof
end

