-- ==== Sys2Proof/Machine/Plan.lean ====
section
/-! DEFINITION. The rate plan store: loop frequency, band check, entry status and the match test (chapter 2), all on whole numbers. -/

namespace Sys2Proof.Machine

/-- The effective reference divider R′: R, or 1 when R is 0 (02 R28). -/
def PlanEntry.effR (e : PlanEntry) : Nat := if e.r = 0 then 1 else e.r

/-- The effective multiplier N′: N, or 1 when N is 0 (02 R28). -/
def PlanEntry.effN (e : PlanEntry) : Nat := if e.n = 0 then 1 else e.n

/-- S × N′ × 2^P, the numerator of the derived loop frequency; its denominator is R′ (02 R30). -/
def PlanEntry.freqNum (e : PlanEntry) (rate : Nat) : Nat := rate * e.effN * 2 ^ e.p

/-- The status of an entry that is not EMPTY (02 R31). -/
def PlanEntry.derivedStatus (e : PlanEntry) (rate : Nat) : PlanStatus :=
  if e.l = 0 then .disabled
  else if 16000000 * e.effR ≤ e.freqNum rate ∧ e.freqNum rate ≤ 1000000000 * e.effR ∧
      absDiff (e.freqNum rate) (e.l * 2 ^ e.e * 1000000 * e.effR) ≤ 2 ^ e.e * 500000 * e.effR then .valid
  else .outOfBand

/-- The status derived again when the station rate changes: DISABLED stays DISABLED (02 R38). -/
def PlanEntry.rejudge (e : PlanEntry) (rate : Nat) : PlanEntry :=
  match e.status with
  | .disabled => e
  | .valid => { e with status := e.derivedStatus rate }
  | .outOfBand => { e with status := e.derivedStatus rate }

/-- Whether an entry satisfies a target (f, tol) with a port divider d (02 R39). -/
def PlanEntry.satisfies (e : PlanEntry) (rate f tol d : Nat) : Bool :=
  e.status == .valid &&
  absDiff (e.freqNum rate) (f * d * e.effR) * 1000000 ≤ tol * f * d * e.effR &&
  e.freqNum rate ≤ 250000000 * d * e.effR

/-- The port dividers in the order in which a match query tries them (02 R40). -/
def portDividers : List Nat := List.range' 1 64

/-- The smallest port divider with which an entry satisfies a target (02 R40). -/
def PlanEntry.matchTarget (e : PlanEntry) (rate f tol : Nat) : Option Nat :=
  portDividers.find? (fun d => e.satisfies rate f tol d)

/-- The answer of an entry match query on the plan: an EMPTY entry satisfies no target (02 R39, R40). -/
def matchEntry (plan : Vector (Option PlanEntry) 32) (rate : Nat) (i : EntryIx) (f tol : Nat) : Option Nat :=
  (rd plan i).bind (fun e => e.matchTarget rate f tol)

/-- The first plan search of 02 R41: the lowest-numbered entry that satisfies a target, with its divider. -/
def findEntry (plan : Vector (Option PlanEntry) 32) (rate f tol : Nat) : Option (EntryIx × Nat) :=
  allEntries.findSome? (fun i => (matchEntry plan rate i f tol).map (fun d => (i, d)))

/-- The second plan search of 02 R41: whether any entry satisfies a target with any divider. -/
def anyEntrySatisfies (plan : Vector (Option PlanEntry) 32) (rate f tol : Nat) : Bool :=
  (findEntry plan rate f tol).isSome

/-- The mode and settle time a loop reads from its entry when it starts (02 R29); an EMPTY entry is never started on (02 R32; log 29). -/
def planMode (plan : Vector (Option PlanEntry) 32) (i : EntryIx) : LockMode :=
  match rd plan i with
  | some e => e.mode
  | none => .auto

end Sys2Proof.Machine
end

