-- ==== Sys2Proof/Machine/Ops.lean ====
section
/-! DEFINITION. The named operations of the notice unit, the attention latch, the port switch unit and the loop controller, which every meaning is written over. -/

namespace Sys2Proof.Machine

/-! ### Notice unit (08 R143, R144) -/

/-- A kind raised: pending, its sequence number advanced (08 R143). -/
def Notice.raised (n : Notice) : Notice := { pending := true, seq := Mod16.next n.seq }

/-- A kind cleared: not pending, its sequence number kept (08 R144). -/
def Notice.cleared (n : Notice) : Notice := { n with pending := false }

/-- A raise of a port kind (08 R143). -/
def NoticeUnit.raise (u : NoticeUnit) (p : PortIx) (k : PortKind) : NoticeUnit :=
  { u with ports := upd u.ports p (fun n => { n with kinds := upd n.kinds k.index Notice.raised }) }

/-- The clearing of a port: its nine kinds (08 R144). -/
def NoticeUnit.clearPort (u : NoticeUnit) (p : PortIx) : NoticeUnit :=
  { u with ports := upd u.ports p (fun n => { n with kinds := mapCells (fun _ k => k.cleared) n.kinds }) }

/-- A raise of RETIRED with its reason and generation (08 R143). -/
def NoticeUnit.raiseRetired (u : NoticeUnit) (p : PortIx) (r : Retired) : NoticeUnit :=
  let u := u.raise p .retired
  { u with ports := upd u.ports p (fun n => { n with retired := some r }) }

/-- A raise of a slot kind (08 R143). -/
def NoticeUnit.raiseSlot (u : NoticeUnit) (slot : SlotIx) (k : SlotKind) : NoticeUnit :=
  { u with slots := upd u.slots slot (fun n =>
      match k with
      | .restarted => { n with restarted := n.restarted.raised }
      | .continued => { n with continued := n.continued.raised }) }

/-- The clearing of a slot's slot kinds (08 R144). -/
def NoticeUnit.clearSlotKinds (u : NoticeUnit) (slot : SlotIx) : NoticeUnit :=
  { u with slots := upd u.slots slot (fun n => { restarted := n.restarted.cleared, continued := n.continued.cleared }) }

/-- The clearing of a slot's ports (08 R144). -/
def NoticeUnit.clearSlotPorts (u : NoticeUnit) (slot : SlotIx) : NoticeUnit :=
  (u.clearPort (portOf slot .a)).clearPort (portOf slot .b)

/-- A slot kind raised for each slot whose PRESENT line is asserted (08 R142). -/
def NoticeUnit.raiseForPresent (u : NoticeUnit) (present : Vector Bool 12) (k : SlotKind) : NoticeUnit :=
  allSlots.foldl (fun u slot => if rd present slot then u.raiseSlot slot k else u) u

/-- A raise of a port kind, in the card's state. -/
def State.raise (s : State) (p : PortIx) (k : PortKind) : State := { s with notices := s.notices.raise p k }

/-! ### Attention latch (08 R149) -/

/-- A raise of a cause: its count up by one, 255 staying 255 (08 R149). -/
def Attention.raise (a : Attention) (c : Cause) : Attention :=
  { a with counts := upd a.counts c.index (fun n => min 255 (n + 1)) }

/-- The causes, most urgent first (Table 8-3). -/
def allCauses : List Cause := [.stationNone, .loopFailed, .grantStranded, .stationSwitched, .referenceQualified]

/-- The latch filled at the end of an action: when no cause is latched, the highest-priority pending cause becomes latched (08 R149). -/
def Attention.fillLatch (a : Attention) : Attention :=
  match a.latched with
  | some _ => a
  | none => { a with latched := allCauses.find? a.pendingCause }

/-- The acknowledgement of a cause (08 R151). -/
def Attention.acknowledge (a : Attention) (c : Cause) : Attention :=
  if a.pendingCause c then
    Attention.fillLatch { counts := wr a.counts c.index 0, latched := if a.latched = some c then none else a.latched }
  else a

/-- A raise of an attention cause, in the card's state; the latch is filled at the end of the action. -/
def State.raiseCause (s : State) (c : Cause) : State :=
  { s with maint := { s.maint with attention := s.maint.attention.raise c } }

/-- The end of an action that raises causes (08 R149). -/
def State.fillLatch (s : State) : State :=
  { s with maint := { s.maint with attention := s.maint.attention.fillLatch } }

/-! ### Ports (04 R75 to R78) -/

/-- What a port becomes, with the reports it makes in the same action (04 R79). -/
abbrev PortStep := PortRec × List Report

/-- A switch completes: the target is current, and completion is reported (04 R76). -/
def PortRec.completed (target : Source) (count : Nat) (origin : CountOrigin) : PortStep :=
  ({ current := target, switching := none, count := count, origin := origin }, [.completion target])

/-- A switch ends void: the port is OFF, and the void is reported (04 R77). -/
def PortRec.voided (target : Source) : PortStep := (PortRec.off, [.void target])

/-- Whether a target is a loop that is IDLE (04 R77). -/
def targetIdle (loops : Vector LoopRec 6) (target : Source) : Bool :=
  match target with
  | .loop k _ _ => (rd loops k).state == .idle
  | .none => false
  | .fallback _ => false

/-- What a SWITCHING port does at once by the state of its sources: stasis begins when its current source drives no edges (04 R75); in stasis a
lost target ends the switch void (R77), and NONE or an unaligned source that is silent completes it (R76). -/
def PortRec.advance (loops : Vector LoopRec 6) (station : Option Ref) (r : PortRec) : PortStep :=
  match r.switching with
  | none => (r, [])
  | some sw =>
    if sw.stasis || r.current == .none || silentSource loops station r.current then
      if sw.lost then PortRec.voided sw.target
      else if sw.target == .none || (sw.target.group.isNone && silentSource loops station sw.target) then
        PortRec.completed sw.target 0 .unbegun
      else ({ r with switching := some { sw with stasis := true } }, [])
    else (r, [])

/-- A switch request (04 R75, R77, R78). `low` says that the line was found low. -/
def PortRec.request (loops : Vector LoopRec 6) (station : Option Ref) (low : Bool) (target : Source) (r : PortRec) : PortStep :=
  match r.switching with
  | none =>
    if target = r.current then (r, [])
    else PortRec.advance loops station { r with switching := some { target := target, stasis := low, lost := targetIdle loops target } }
  | some sw =>
    if target = sw.target then (r, [])
    else if sw.stasis = false ∧ target = r.current then ({ r with switching := none }, [.completion target])
    else PortRec.advance loops station
      { r with switching := some { target := target, stasis := sw.stasis, lost := targetIdle loops target } }

/-- Whether a request finds the line running in a phase the model does not know: the port is RUNNING from a source with edges and the target
is another (04 R75). -/
def PortRec.phaseOpen (loops : Vector LoopRec 6) (station : Option Ref) (target : Source) (r : PortRec) : Bool :=
  r.switching.isNone && target != r.current && r.current != .none && !silentSource loops station r.current

/-- Loop k has gone IDLE: a switch toward it loses its target (04 R77, R85). -/
def PortRec.loopGone (loops : Vector LoopRec 6) (station : Option Ref) (k : LoopIx) (r : PortRec) : PortStep :=
  PortRec.advance loops station
    { r with switching := r.switching.map (fun sw => if sw.target.onLoop k then { sw with lost := true } else sw) }

/-- The start of stasis at a low phase of the current source (04 R75). -/
def PortRec.beginStasis (loops : Vector LoopRec 6) (station : Option Ref) (r : PortRec) : PortStep :=
  PortRec.advance loops station { r with switching := r.switching.map (fun sw => { sw with stasis := true }) }

/-- The start of the low phase in the count of a divider of value n, in half-periods of its input: the output is high for the first ⌈n/2⌉
periods, and a divider of value 1 passes its input through (04 R72). An unaligned divider takes the line there (R76). -/
def lowPhaseStart (n : Nat) : Nat := if n = 1 then 1 else 2 * ((n + 1) / 2)

/-- Whether the output of a divider of value n is low, `half` half-periods of its input after the beginning of a count (04 R72). -/
def dividerLow (n half : Nat) : Bool := lowPhaseStart n ≤ half % (2 * n)

/-- The target whose divider counts toward its first low phase, at a port in stasis toward an unaligned source with edges (04 R76). -/
def PortRec.countsToward (r : PortRec) : Option Source :=
  match r.switching with
  | none => none
  | some sw => if sw.stasis && !sw.lost && sw.target.group.isNone then some sw.target else none

/-- Completion at the low phase of the new source's first count, which began at `origin` (04 R76). -/
def PortRec.lowPhase (origin : CountOrigin) (r : PortRec) : PortStep :=
  match r.countsToward with
  | some x => PortRec.completed x (lowPhaseStart x.divider) origin
  | none => (r, [])

/-- A source without its alignment to group g (04 R83, R84). -/
def Source.unalign (g : GroupIx) (src : Source) : Source :=
  match src with
  | .loop k d (some h) => if h = g then .loop k d Option.none else src
  | .loop _ _ Option.none => src
  | .none => src
  | .fallback _ => src

/-- A port loses its alignment to group g, without a switch and without a report of its own; its divider counts on (04 R83, R84). -/
def PortRec.unalign (loops : Vector LoopRec 6) (station : Option Ref) (g : GroupIx) (r : PortRec) : PortStep :=
  PortRec.advance loops station
    { r with current := r.current.unalign g,
             switching := r.switching.map (fun sw => { sw with target := sw.target.unalign g }) }

/-- A port at a rollover of group g at which `value` begins, counted from `origin` (04 R80, R81): a port in stasis toward an aligned source whose
divider divides the value completes; a port driven by one begins a new count; every other port is as it was. -/
def PortRec.rollover (g : GroupIx) (value : Nat) (origin : CountOrigin) (r : PortRec) : PortStep :=
  match r.switching with
  | none =>
    if r.current.group = some g ∧ value % r.current.divider = 0 then ({ r with count := 0, origin := origin }, []) else (r, [])
  | some sw =>
    if sw.stasis then
      if sw.lost = false ∧ sw.target.group = some g ∧ value % sw.target.divider = 0 then PortRec.completed sw.target 0 origin
      else (r, [])
    else if r.current.group = some g ∧ value % r.current.divider = 0 then ({ r with count := 0, origin := origin }, [])
    else (r, [])

/-- A port whose silent source has its edges again begins a count at the first edge (04 R74). -/
def PortRec.recover (regained : Source → Bool) (origin : CountOrigin) (r : PortRec) : PortStep :=
  if regained r.current && !r.inStasis then ({ r with count := 0, origin := origin }, []) else (r, [])

/-! ### Port switch unit -/

/-- One port changed, its reports added to those not yet taken. -/
def SwitchUnit.atPort (u : SwitchUnit) (p : PortIx) (f : PortRec → PortStep) : SwitchUnit :=
  { u with ports := wr u.ports p (f (rd u.ports p)).1,
           reports := upd u.reports p (fun l => l ++ (f (rd u.ports p)).2) }

/-- Every port changed, its reports added to those not yet taken; reports of different ports have no order (04 R79). -/
def SwitchUnit.atAllPorts (u : SwitchUnit) (f : PortRec → PortStep) : SwitchUnit :=
  { u with ports := mapCells (fun _ r => (f r).1) u.ports,
           reports := mapCells (fun p l => l ++ (f (rd u.ports p)).2) u.reports }

/-- The periods of an input by which the counts reckoned from an origin lie ahead of the half-periods reckoned (log 6). -/
def CountOrigin.lead (input : ClockInput) (o : CountOrigin) : Nat :=
  match o with
  | .unbegun => 0
  | .begun n => Config.lead n input
  | .takeover before value n => before.lead input + value * Config.laps n

/-- The input that the divider of a source counts (04 R72). -/
def Source.input (src : Source) : Option ClockInput :=
  match src with
  | .none => Option.none
  | .loop k _ _ => some (.loop k)
  | .fallback _ => some .station

/-- Where the divider that drives a port's line stands at the `moment`-th moment, in half-periods of its input counted on from its origin
without interruption (04 R74; log 6). -/
def PortRec.position (moment : Nat) (r : PortRec) : Nat :=
  match r.current.input with
  | some input => Config.halfPeriods moment input + 2 * r.origin.lead input
  | none => 0

/-- Whether a port's line is low at the `moment`-th moment (04 R72, R73, R75): a port that is OFF, in stasis or silent holds it low; else it carries
the output of the divider of its current source. -/
def PortRec.lineLow (loops : Vector LoopRec 6) (station : Option Ref) (moment : Nat) (r : PortRec) : Bool :=
  r.current == .none || r.inStasis || silentSource loops station r.current || dividerLow r.current.divider (r.position moment)

/-- Whether a port's line is low at the unit's present moment. -/
def SwitchUnit.lineLow (loops : Vector LoopRec 6) (station : Option Ref) (u : SwitchUnit) (p : PortIx) : Bool :=
  (rd u.ports p).lineLow loops station u.draws

/-- A beginning of counts numbered: the next one has another number (log 6). -/
def SwitchUnit.begun (u : SwitchUnit) : SwitchUnit := { u with starts := u.starts + 1 }

/-- A line's phase has been asked for: the next request comes at another moment, unless the action under way is all of one moment (log 6). -/
def SwitchUnit.phaseAsked (u : SwitchUnit) : SwitchUnit := { u with draws := if u.sameMoment then u.draws else u.draws + 1 }

/-- A switch request of the grant engine, which finds the port's line low or high at that moment (04 R75). -/
def SwitchUnit.request (loops : Vector LoopRec 6) (station : Option Ref) (u : SwitchUnit) (p : PortIx) (target : Source) : SwitchUnit :=
  let asked := u.atPort p (PortRec.request loops station (u.lineLow loops station p) target)
  if (rd u.ports p).phaseOpen loops station target then asked.phaseAsked else asked

/-- A group divider established: its first count begins (04 R80). -/
def GroupDivider.established (k : LoopIx) (value : Nat) (origin : CountOrigin) : GroupDivider :=
  { loop := k, value := value, pendingValue := none, count := 0, stopped := false, origin := origin }

/-- A divider established for group g, in place of any it had. -/
def SwitchUnit.establish (u : SwitchUnit) (g : GroupIx) (k : LoopIx) (value : Nat) : SwitchUnit :=
  { u.begun with dividers := wr u.dividers g (some (GroupDivider.established k value (.begun u.starts))) }

/-- The grant engine gives a value for a group (04 R80, R82, R83): the divider is established, takes the value as pending, or is moved. -/
def SwitchUnit.giveDivider (loops : Vector LoopRec 6) (station : Option Ref) (u : SwitchUnit) (g : GroupIx) (k : LoopIx) (value : Nat) :
    SwitchUnit :=
  match rd u.dividers g with
  | none => u.establish g k value
  | some dv =>
    if dv.loop = k then
      if value = dv.value ∧ dv.pendingValue = none then u
      else { u with dividers := wr u.dividers g (some { dv with pendingValue := some value }) }
    else (u.atAllPorts (PortRec.unalign loops station g)).establish g k value

/-- The grant engine releases a group's divider (04 R84). -/
def SwitchUnit.releaseDivider (loops : Vector LoopRec 6) (station : Option Ref) (u : SwitchUnit) (g : GroupIx) : SwitchUnit :=
  { u.atAllPorts (PortRec.unalign loops station g) with dividers := wr u.dividers g none }

/-- Loop k has gone IDLE (04 R77, R80, R85); `loops` are the loops after it. -/
def SwitchUnit.loopIdle (loops : Vector LoopRec 6) (station : Option Ref) (u : SwitchUnit) (k : LoopIx) : SwitchUnit :=
  { u.atAllPorts (PortRec.loopGone loops station k) with
    dividers := mapCells (fun _ dv => dv.map (fun dv => if dv.loop = k then { dv with stopped := true } else dv)) u.dividers }

/-- The ports after a change of loop states or of the station reference (04 R85). -/
def SwitchUnit.advanceAll (loops : Vector LoopRec 6) (station : Option Ref) (u : SwitchUnit) : SwitchUnit :=
  u.atAllPorts (PortRec.advance loops station)

/-- A switch request, in the card's state. -/
def State.requestSwitch (s : State) (p : PortIx) (target : Source) : State :=
  { s with switch := s.switch.request s.loops.loops s.station.station p target }

/-- An action of several switch requests, all of which fall in one moment (log 6); an action within such an action adds nothing. -/
def State.oneMoment (f : State → State) (s : State) : State :=
  if s.switch.sameMoment then f s
  else
    let t := f { s with switch := { s.switch with sameMoment := true } }
    { t with switch := { t.switch with draws := t.switch.draws + 1, sameMoment := false } }

/-- A group divider's value given, in the card's state. -/
def State.giveDivider (s : State) (g : GroupIx) (k : LoopIx) (value : Nat) : State :=
  { s with switch := s.switch.giveDivider s.loops.loops s.station.station g k value }

/-- A group divider released, in the card's state. -/
def State.releaseDivider (s : State) (g : GroupIx) : State :=
  { s with switch := s.switch.releaseDivider s.loops.loops s.station.station g }

/-! ### Loop controller (03 R46 to R48, R65) -/

/-- The record of loop k replaced. -/
def State.setLoop (s : State) (k : LoopIx) (l : LoopRec) : State :=
  { s with loops := { s.loops with loops := wr s.loops.loops k l } }

/-- A lock event raised by loop k waits behind those not yet taken (03 R65). -/
def State.raiseLock (s : State) (k : LoopIx) (e : LockEvent) : State :=
  { s with loops := { s.loops with events := upd s.loops.events k (fun l => l ++ [e]) } }

/-- The timer with which a loop on an entry of the mode given works toward lock, at full value (03 R46). -/
def startTimer (acquireLimit : Nat) (mode : LockMode) : LoopTimer :=
  match mode with
  | .auto => { kind := .acquire, remaining := acquireLimit }
  | .timed settle => { kind := .settle, remaining := settle }

/-- A loop that has just taken an entry (03 R46, R48). -/
def LoopRec.started (acquireLimit : Nat) (station : Option Ref) (entry : EntryIx) (mode : LockMode) : LoopRec :=
  { state := if station.isSome then .acquiring else .waiting, failed := none, run := some { entry := entry, mode := mode },
    good := 0, lastError := none, timer := some (startTimer acquireLimit mode) }

/-- A start: taken when the loop is IDLE and not quarantined (03 R46). -/
def State.startLoop (s : State) (k : LoopIx) (entry : EntryIx) : State :=
  if (s.loop k).state = .idle ∧ (s.loop k).failed = none then
    s.setLoop k (LoopRec.started s.loops.acquireLimit s.station.station entry (planMode s.plan entry))
  else s

/-- The ports after loop k has gone IDLE. -/
def State.portsLoopIdle (s : State) (k : LoopIx) : State :=
  { s with switch := s.switch.loopIdle s.loops.loops s.station.station k }

/-- The ports after a change of loop states or of the station reference. -/
def State.advancePorts (s : State) : State :=
  { s with switch := s.switch.advanceAll s.loops.loops s.station.station }

/-- A stop: the loop goes to IDLE, unquarantined (03 R47), and the ports see it go (04 R85). -/
def State.stopLoop (s : State) (k : LoopIx) : State := (s.setLoop k LoopRec.idle).portsLoopIdle k

/-- An allow-gap restart on another entry (03 R48). -/
def State.restartLoop (s : State) (k : LoopIx) (entry : EntryIx) : State :=
  (s.setLoop k (LoopRec.started s.loops.acquireLimit s.station.station entry (planMode s.plan entry))).advancePorts

end Sys2Proof.Machine
end

