-- ==== Sys2Proof/Machine/Engine.lean ====
section
/-! DEFINITION. The grant engine's shared operations: port targets, binding lists, allocation, alignment groups, retirement and the taking of lock events and switch reports (chapters 1, 5 and 6). -/

namespace Sys2Proof.Machine

/-! ### Records -/

/-- The handle of the grant on a port. -/
def Grant.handle (g : Grant) (p : PortIx) : Handle := { port := p, gen := g.gen }

/-- The grant record of a port replaced. -/
def State.setGrant (s : State) (p : PortIx) (g : Option Grant) : State :=
  { s with engine := { s.engine with grants := wr s.engine.grants p g } }

/-- The grant record of a port changed, when the port holds one. -/
def State.updGrant (s : State) (p : PortIx) (f : Grant → Grant) : State := s.setGrant p ((s.grantAt p).map f)

/-- The binding list of loop k, oldest first (01 R5). -/
def State.list (s : State) (k : LoopIx) : List Binding := rd s.engine.lists k

/-- The binding list of loop k replaced. -/
def State.setList (s : State) (k : LoopIx) (l : List Binding) : State :=
  { s with engine := { s.engine with lists := wr s.engine.lists k l } }

/-- A group record replaced. -/
def State.setGroup (s : State) (gi : GroupIx) (g : Option Group) : State :=
  { s with engine := { s.engine with groups := wr s.engine.groups gi g } }

/-- The group a grant belongs to, with its record. -/
def State.groupOf (s : State) (g : Grant) : Option (GroupIx × Group) :=
  g.group.bind (fun gi => (rd s.engine.groups gi).map (fun gr => (gi, gr)))

/-- RETUNED raised for a grant, which clears its completion mark (06 R107). -/
def State.raiseRetuned (s : State) (p : PortIx) : State := (s.updGrant p (fun g => { g with mark := false })).raise p .retuned

/-! ### Port targets (01 R7, 06 R108) -/

/-- The pending source of a grant (01 R7). -/
def Grant.pendingSource (g : Grant) : Source :=
  match g.policy, g.fd with
  | .fallback, some fd => .fallback fd
  | .fallback, none => .none
  | .stop, _ => .none
  | .keep, _ => .none

/-- LOOP(k, d) of the grant's CURRENT binding, aligned when the grant is grouped (01 R7). -/
def Grant.loopSource (g : Grant) : Source :=
  match g.binding with
  | some b => .loop b.loop b.d g.group
  | none => g.pendingSource

/-- The port target by grant state (Table 1-7). -/
def State.tableTarget (s : State) (g : Grant) : Source :=
  match g.state, g.binding with
  | .pending, some b => if (s.loop b.loop).usable then g.loopSource else g.pendingSource
  | .active, _ => g.loopSource
  | .degraded, _ => if g.policy = .keep then g.loopSource else g.pendingSource
  | .pending, none => g.pendingSource
  | .stranded, _ => g.pendingSource

/-- The port target of a grant, a retune in flight included (06 R108). -/
def State.portTarget (s : State) (g : Grant) : Source :=
  match g.retune with
  | some (.sameLoop d _ _) =>
    match g.binding with
    | some b => .loop b.loop d g.group
    | none => s.tableTarget g
  | some (.newLoop t _ _ .inFlight) => .loop t.loop t.d none
  | some (.newLoop _ _ _ .awaitingLock) => s.tableTarget g
  | none => s.tableTarget g

/-- A switch of a grant's port requested by the grant's state (01 R7). -/
def State.requestByState (s : State) (p : PortIx) : State :=
  match s.grantAt p with
  | some g => s.requestSwitch p (s.portTarget g)
  | none => s

/-- The target lock gained names for a grant (05 R92): LOOP(k, d) of its CURRENT binding, unless a cut-over is in flight (06 R108). -/
def Grant.gainedTarget (g : Grant) : Source :=
  match g.retune with
  | some (.newLoop t _ _ .inFlight) => .loop t.loop t.d none
  | some (.newLoop _ _ _ .awaitingLock) => g.loopSource
  | some (.sameLoop _ _ _) => g.loopSource
  | none => g.loopSource

/-! ### Binding lists (01 R5, R6) -/

/-- A binding appended at the tail of loop k's list; an IDLE loop is started on the entry in the same action (01 R6). -/
def State.appendBinding (s : State) (k : LoopIx) (entry : EntryIx) (b : Binding) : State :=
  (s.setList k (s.list k ++ [b])).startLoop k entry

/-- The binding of a grant removed from loop k's list; the others keep their order (01 R5). -/
def State.removeBinding (s : State) (k : LoopIx) (h : Handle) : State :=
  s.setList k ((s.list k).filter (fun b => b.handle != h))

/-- The binding of a grant removed from loop k's list, and the loop stopped when the list becomes empty by it (01 R6, R21). -/
def State.unbind (s : State) (k : LoopIx) (h : Handle) : State :=
  if (s.list k).any (fun b => b.handle == h) ∧ ((s.removeBinding k h).list k).isEmpty then (s.removeBinding k h).stopLoop k
  else s.removeBinding k h

/-- A RETUNE_TARGET binding becomes CURRENT in place (01 R5). -/
def State.targetBecomesCurrent (s : State) (k : LoopIx) (h : Handle) : State :=
  s.setList k ((s.list k).map (fun b => if b.handle = h then { b with role := .current } else b))

/-- The port divider of a grant's binding on loop k changed in place (01 R5). -/
def State.setBindingDivider (s : State) (k : LoopIx) (h : Handle) (d : Nat) : State :=
  s.setList k ((s.list k).map (fun b => if b.handle = h then { b with d := d } else b))

/-- A grant bound to a loop, an entry and a divider: its binding field, a CURRENT binding at the tail of the loop's list, and a start (01 R11, R6). -/
def State.bindCurrent (s : State) (p : PortIx) (b : GrantBinding) : State :=
  match s.grantAt p with
  | some g =>
    (s.updGrant p (fun g => { g with binding := some b })).appendBinding b.loop b.entry
      { handle := g.handle p, d := b.d, role := .current }
  | none => s

/-! ### Allocation (01 R9, R10) -/

/-- Whether a loop may be shared in step 1 of the allocation (01 R9). -/
def LoopRec.sharedLocked (l : LoopRec) : Bool := l.state == .locked

/-- Whether a loop may be shared in step 2: ACQUIRING, TRACKING or WAITING (01 R9). -/
def LoopRec.sharedUnlocked (l : LoopRec) : Bool := l.state == .acquiring || l.state == .tracking || l.state == .waiting

/-- Whether a loop may be started in step 3: IDLE and not quarantined (01 R9). -/
def LoopRec.startable (l : LoopRec) : Bool := l.state == .idle && l.failed.isNone

/-- The test put to the entry a loop runs. -/
def LoopRec.tryEntry {α : Type} (l : LoopRec) (test : EntryIx → Option α) : Option (EntryIx × α) :=
  match l.run with
  | some r => (test r.entry).map (fun a => (r.entry, a))
  | none => none

/-- The search of 01 R9 for an arbitrary test of a plan entry, with one loop excluded or none: share a LOCKED loop, share a running unlocked
loop, start the lowest idle loop on the lowest entry. -/
def searchLoops {α : Type} (loops : Vector LoopRec 6) (excluded : Option LoopIx) (test : EntryIx → Option α) :
    Option (LoopIx × EntryIx × α) :=
  match allLoops.findSome? (fun k =>
      if excluded ≠ some k ∧ (rd loops k).sharedLocked then ((rd loops k).tryEntry test).map (fun x => (k, x)) else none) with
  | some r => some r
  | none =>
    match allLoops.findSome? (fun k =>
        if excluded ≠ some k ∧ (rd loops k).sharedUnlocked then ((rd loops k).tryEntry test).map (fun x => (k, x)) else none) with
    | some r => some r
    | none =>
      match allLoops.find? (fun k => excluded != some k && (rd loops k).startable) with
      | some k => allEntries.findSome? (fun i => (test i).map (fun a => (k, i, a)))
      | none => none

/-- Allocation for a target (01 R9). -/
def State.allocate (s : State) (f tol : Nat) (excluded : Option LoopIx) : Option GrantBinding :=
  (searchLoops s.loops.loops excluded (fun i => matchEntry s.plan s.station.rate i f tol)).map
    (fun x => { loop := x.1, entry := x.2.1, d := x.2.2 })

/-! ### Alignment groups (01 R13 to R19) -/

/-- The largest group divider (01 R13). -/
def maxGroupDivider : Nat := 4096

/-- The least common multiple of a list of dividers. -/
def lcmOf (l : List Nat) : Nat := l.foldl Nat.lcm 1

/-- The new divider of a SAME_LOOP retune in flight, if any. -/
def Grant.sameLoopDivider (g : Grant) : Option Nat :=
  match g.retune with
  | some (.sameLoop d _ _) => some d
  | some (.newLoop _ _ _ _) => none
  | none => none

/-- The dividers a grant brings to its group: its present one, and its retune divider when a SAME_LOOP retune is in flight (01 R14 step 7). -/
def Grant.groupDividers (g : Grant) : List Nat :=
  (match g.binding with
   | some b => [b.d]
   | none => []) ++ g.sameLoopDivider.toList

/-- A group is dissolved (01 R19). -/
def State.dissolveGroup (s : State) (gi : GroupIx) : State :=
  match rd s.engine.groups gi with
  | some gr =>
    (gr.members.foldl (fun s h => s.updGrant h.port (fun g => { g with group := none })) (s.setGroup gi none)).releaseDivider gi
  | none => s

/-- A member leaves its group (01 R18); a group left with one member is dissolved (R19). -/
def State.leaveGroup (s : State) (p : PortIx) : State :=
  match s.grantAt p with
  | none => s
  | some g =>
    match g.group with
    | none => s
    | some gi =>
      match rd s.engine.groups gi with
      | none => s.updGrant p (fun g => { g with group := none })
      | some gr =>
        let members := gr.members.filter (fun h => h != g.handle p)
        let s := (s.updGrant p (fun g => { g with group := none })).setGroup gi (some { gr with members := members })
        if members.length ≤ 1 then s.dissolveGroup gi else s

/-- A grouped grant's group divider G becomes the least common multiple of G and a divider (01 R17). -/
def State.growGroup (s : State) (group : Option GroupIx) (d : Nat) : State :=
  match group with
  | none => s
  | some gi =>
    match rd s.engine.groups gi with
    | some gr => s.setGroup gi (some { gr with g := Nat.lcm gr.g d })
    | none => s

/-! ### Retirement (01 R21, R22) -/

/-- Retirement reasons (Table 1-9). -/
inductive RetireWhy where
  | release | helloDrop | leaseExpired | forced | slotLoss
  deriving DecidableEq, Repr

/-- The reason RETIRED is raised with, for a retirement by the card (Table 1-9). -/
def RetireWhy.raised (w : RetireWhy) : Option RetireReason :=
  match w with
  | .leaseExpired => some .leaseExpired
  | .forced => some .forced
  | .release => none
  | .helloDrop => none
  | .slotLoss => none

/-- The notice effects of a retirement (01 R22): the port's kinds cleared, then RETIRED raised for a retirement by the card. -/
def NoticeUnit.retirement (u : NoticeUnit) (p : PortIx) (why : RetireWhy) (gen : Mod16) : NoticeUnit :=
  match why.raised with
  | some reason => (u.clearPort p).raiseRetired p { reason := reason, gen := gen }
  | none => u.clearPort p

/-- The retirement of the grant on a port (01 R21): it leaves its group, its bindings are removed and emptied loops stopped, its port is switched
to OFF, its record is removed, and the notice effects follow. -/
def State.retire (s : State) (p : PortIx) (why : RetireWhy) : State :=
  match s.grantAt p with
  | none => s
  | some g =>
    let s := s.leaveGroup p
    let s := match g.binding with
      | some b => s.unbind b.loop (g.handle p)
      | none => s
    let s := match g.retune with
      | some (.newLoop t _ _ _) => s.unbind t.loop (g.handle p)
      | some (.sameLoop _ _ _) => s
      | none => s
    let s := s.requestSwitch p .none
    let s := s.setGrant p none
    { s with notices := s.notices.retirement p why g.gen }

/-! ### Retunes carried out (06 R112, R114, R116, R117) -/

/-- A grant's port divider and target changed on its own loop, with RETUNED (06 R112, R114): the record is cleared and G grows when the grant is
grouped. -/
def State.applyDivider (s : State) (p : PortIx) (d f tol : Nat) : State :=
  match s.grantAt p with
  | none => s
  | some g =>
    match g.binding with
    | none => s
    | some b =>
      let s := s.updGrant p (fun g => { g with f := f, tol := tol, binding := some { b with d := d }, retune := none })
      let s := s.setBindingDivider b.loop (g.handle p) d
      let s := s.growGroup g.group d
      s.raiseRetuned p

/-- A SAME_LOOP retune in flight takes effect (06 R114). -/
def State.commitSameLoop (s : State) (p : PortIx) : State :=
  match s.grantAt p with
  | none => s
  | some g =>
    match g.retune with
    | some (.sameLoop d f tol) => s.applyDivider p d f tol
    | some (.newLoop _ _ _ _) => s
    | none => s

/-- The cut-over of a NEW_LOOP retune set, and the port requested by the grant's state (06 R116). -/
def State.setCutOver (s : State) (p : PortIx) (cut : CutOver) : State :=
  match s.grantAt p with
  | none => s
  | some g =>
    match g.retune with
    | some (.newLoop t f tol _) => (s.updGrant p (fun g => { g with retune := some (.newLoop t f tol cut) })).requestByState p
    | some (.sameLoop _ _ _) => s
    | none => s

/-- A NEW_LOOP retune commits (06 R117). -/
def State.commitNewLoop (s : State) (p : PortIx) : State :=
  match s.grantAt p with
  | none => s
  | some g =>
    match g.retune with
    | some (.newLoop t f tol _) =>
      let s := s.targetBecomesCurrent t.loop (g.handle p)
      let s := match g.binding with
        | some b => s.unbind b.loop (g.handle p)
        | none => s
      let s := s.updGrant p (fun g => { g with binding := some t, f := f, tol := tol, state := .active })
      let s := s.raiseRetuned p
      let s := if (s.loop t.loop).state = .holdover then s.raise p .holdover else s
      s.updGrant p (fun g => { g with retune := none, mark := false })
    | some (.sameLoop _ _ _) => s
    | none => s

/-! ### Lock events taken (05 R88, R92 to R98) -/

/-- Lock gained at one binding (05 R92, 06 R116). -/
def State.gainedAt (s : State) (b : Binding) : State :=
  match s.resolve b.handle, b.role with
  | none, _ => s
  | some _, .retuneTarget => s.setCutOver b.handle.port .inFlight
  | some g, .current =>
    match g.state with
    | .pending => s.requestSwitch b.handle.port g.gainedTarget
    | .degraded =>
      if g.policy = .keep then
        ((s.updGrant b.handle.port (fun g => { g with state := .active })).raise b.handle.port .restored).requestByState b.handle.port
      else s.requestSwitch b.handle.port g.gainedTarget
    | .active => s
    | .stranded => s

/-- Lock lost at one binding (05 R94, R95, R96; 06 R114, R116). -/
def State.lostAt (s : State) (b : Binding) : State :=
  match s.resolve b.handle, b.role with
  | none, _ => s
  | some g, .retuneTarget =>
    match g.retune with
    | some (.newLoop _ _ _ .inFlight) => s.setCutOver b.handle.port .awaitingLock
    | some (.newLoop _ _ _ .awaitingLock) => s
    | some (.sameLoop _ _ _) => s
    | none => s
  | some g, .current =>
    match g.state with
    | .active =>
      let s := s.commitSameLoop b.handle.port
      let s := s.updGrant b.handle.port (fun g => { g with state := .degraded })
      (s.raise b.handle.port .degraded).requestByState b.handle.port
    | .pending => s.requestByState b.handle.port
    | .degraded => s.requestByState b.handle.port
    | .stranded => s

/-- Holdover entered at one binding (05 R97). -/
def State.holdoverAt (s : State) (b : Binding) : State :=
  match s.resolve b.handle, b.role with
  | some g, .current => if g.state = .active then s.raise b.handle.port .holdover else s
  | some _, .retuneTarget => s
  | none, _ => s

/-- A lock event of loop k taken whole, as one action: a walk of the binding list as it stands (05 R88). -/
def State.takeLock (s : State) (k : LoopIx) (kind : LockEventKind) : State :=
  match kind with
  | .gained => s.oneMoment (fun s => (s.list k).foldl State.gainedAt s)
  | .lost => s.oneMoment (fun s => (s.list k).foldl State.lostAt s)
  | .holdoverEntered => (s.list k).foldl State.holdoverAt s
  | .holdoverEnded => s

/-- The lock events of loop k not yet taken. -/
def State.lockEvents (s : State) (k : LoopIx) : List LockEvent := rd s.loops.events k

/-- The lock events of loop k replaced. -/
def State.setLockEvents (s : State) (k : LoopIx) (l : List LockEvent) : State :=
  { s with loops := { s.loops with events := wr s.loops.events k l } }

/-- The grant engine takes the next lock event of loop k, when it is of the kind given. -/
def State.takeNextLock (s : State) (k : LoopIx) (kind : LockEventKind) : State :=
  match s.lockEvents k with
  | e :: rest => if e.kind = kind then (s.setLockEvents k rest).takeLock k kind else s
  | [] => s

/-- Every lock event of loop k not yet taken is taken, in the order raised (03 R65; log 14). -/
def State.takeAllLocks (s : State) (k : LoopIx) : State :=
  (s.lockEvents k).foldl (fun s e => s.takeLock k e.kind) (s.setLockEvents k [])

/-! ### Switch reports taken (05 R89 to R91) -/

/-- A completion is settled when the port is not SWITCHING and its current source equals the one it carries (05 R89). -/
def State.completionSettled (s : State) (p : PortIx) (x : Source) : Bool :=
  (rd s.switch.ports p).switching.isNone && (rd s.switch.ports p).current == x

/-- A void is settled when the port is OFF and not SWITCHING (05 R89). -/
def State.voidSettled (s : State) (p : PortIx) : Bool :=
  (rd s.switch.ports p).switching.isNone && (rd s.switch.ports p).current == .none

/-- A completion carrying X commits the grant's SAME_LOOP retune (06 R114). -/
def Grant.sameLoopCommits (g : Grant) (x : Source) : Bool :=
  match g.retune, g.binding with
  | some (.sameLoop d _ _), some b => x == .loop b.loop d g.group
  | some (.sameLoop _ _ _), none => false
  | some (.newLoop _ _ _ _), _ => false
  | none, _ => false

/-- The grant's usable loop that X is LOOP(k, d) of (05 R90 case 2). -/
def State.onUsableLoop (s : State) (g : Grant) (x : Source) : Bool :=
  match g.binding with
  | some b => x == .loop b.loop b.d g.group && (s.loop b.loop).usable
  | none => false

/-- Whether the grant's loop is in HOLDOVER. -/
def State.boundInHoldover (s : State) (g : Grant) : Bool :=
  match g.binding with
  | some b => (s.loop b.loop).state == .holdover
  | none => false

/-- HOLDOVER raised as well when the grant's loop is in HOLDOVER (05 R90). -/
def State.raiseIfHoldover (s : State) (p : PortIx) (g : Grant) : State :=
  if s.boundInHoldover g then s.raise p .holdover else s

/-- Cases 2 to 5 of 05 R90. -/
def State.completionCases (s : State) (p : PortIx) (x : Source) (g : Grant) : State :=
  if g.state = .pending ∧ s.onUsableLoop g x then
    let s1 := s.updGrant p (fun g => { g with state := .active })
    let s2 := if g.mark then s1.raiseRetuned p else s1.raise p .ready
    s2.raiseIfHoldover p g
  else if g.state = .degraded ∧ s.onUsableLoop g x then
    ((s.updGrant p (fun g => { g with state := .active })).raise p .restored).raiseIfHoldover p g
  else if x = s.portTarget g then s
  else s.requestByState p

/-- A settled completion carrying X at a port whose grant is live (05 R90), the cut-over of a NEW_LOOP retune first (case 1; 06 R117). -/
def State.settledCompletion (s : State) (p : PortIx) (x : Source) : State :=
  match s.grantAt p with
  | none => s
  | some g =>
    match g.retune with
    | some (.newLoop t _ _ .inFlight) =>
      if x.onLoop t.loop then
        if (s.loop t.loop).usable then s.commitNewLoop p else s.setCutOver p .awaitingLock
      else s.completionCases p x g
    | some (.newLoop _ _ _ .awaitingLock) => s.completionCases p x g
    | some (.sameLoop _ _ _) => s.completionCases p x g
    | none => s.completionCases p x g

/-- A SAME_LOOP retune commits before the cases of R90 are applied (06 R114). -/
def State.commitIfSameLoop (s : State) (p : PortIx) (x : Source) : State :=
  match s.grantAt p with
  | some g => if g.sameLoopCommits x then s.commitSameLoop p else s
  | none => s

/-- A switch completion carrying X taken for a port (05 R89, R90). -/
def State.takeCompletion (s : State) (p : PortIx) (x : Source) : State :=
  if s.completionSettled p x then (s.commitIfSameLoop p x).settledCompletion p x else s

/-- A switch void taken for a port (05 R89, R91). -/
def State.takeVoid (s : State) (p : PortIx) : State := if s.voidSettled p then s.requestByState p else s

/-- The switch reports of a port not yet taken. -/
def State.portReports (s : State) (p : PortIx) : List Report := rd s.switch.reports p

/-- The switch reports of a port replaced. -/
def State.setReports (s : State) (p : PortIx) (l : List Report) : State :=
  { s with switch := { s.switch with reports := wr s.switch.reports p l } }

end Sys2Proof.Machine
end

