-- ==== Sys2Proof/Machine/Operands.lean ====
section
/-! DEFINITION. What the card sends: the statuses and payloads of slot answers and maintenance responses, field by field (09 R160 to R166, Table 9-2; 10 R175, Tables 10-1 and 10-2). -/

namespace Sys2Proof.Machine

/-! ### Answers on the slot links -/

/-- The statuses of a slot answer (Table 9-2). -/
inductive LinkStatus where
  | ok | busy | stale | inUse | noMatch | noLoop | alignRefused | retuneBusy | notLeased | held | badRequest | staleNotice | linkError
  deriving DecidableEq, Repr

/-- The status code in the head byte (Table 9-2). -/
def LinkStatus.code : LinkStatus → Nat
  | .ok => 0
  | .busy => 1
  | .stale => 2
  | .inUse => 3
  | .noMatch => 4
  | .noLoop => 5
  | .alignRefused => 6
  | .retuneBusy => 7
  | .notLeased => 8
  | .held => 9
  | .badRequest => 10
  | .staleNotice => 11
  | .linkError => 12

/-- An answer of an owner: a status and a payload. -/
structure Answer where
  status : LinkStatus
  payload : List Byte
  deriving DecidableEq, Repr

/-- An answer with an empty payload. -/
def Answer.bare (status : LinkStatus) : Answer := { status := status, payload := [] }

/-- An OK answer. -/
def Answer.ok (payload : List Byte) : Answer := { status := .ok, payload := payload }

def GrantState.code : GrantState → Nat
  | .pending => 0
  | .active => 1
  | .degraded => 2
  | .stranded => 3

/-- The forms of a RETUNE (Table 9-2). -/
inductive RetuneForm where
  | sameBinding | sameLoop | newLoop | restart | fresh
  deriving DecidableEq, Repr

def RetuneForm.code : RetuneForm → Nat
  | .sameBinding => 0
  | .sameLoop => 1
  | .newLoop => 2
  | .restart => 3
  | .fresh => 4

/-- The retune kind, new frequency and new tolerance of a QUERY entry (09 R163). -/
def retuneBytes (r : Option Retune) : List Byte :=
  match r with
  | none => [toByte 0] ++ be32 0 ++ be16 0
  | some (.sameLoop _ f tol) => [toByte 1] ++ be32 f ++ be16 tol
  | some (.newLoop _ f tol _) => [toByte 2] ++ be32 f ++ be16 tol

/-- A group field of a slot payload: 1 to 8, or 0 when absent (section 9.1). -/
def groupByte (g : Option GroupIx) : Byte :=
  match g with
  | some gi => toByte (gi.val + 1)
  | none => 0x00#8

/-- Loop, entry and divider, 0xFF each when there is no binding to report (section 9.1). -/
def bindingBytes (b : Option GrantBinding) : List Byte :=
  match b with
  | some b => [toByte b.loop.val, toByte b.entry.val, toByte b.d]
  | none => [0xFF#8, 0xFF#8, 0xFF#8]

/-- Lease period and remaining time, 0 for a permanent grant (09 R163). -/
def leaseBytes (l : Option Lease) : List Byte :=
  match l with
  | some l => be16 l.period ++ be32 l.remaining
  | none => be16 0 ++ be32 0

/-- A grant entry of a QUERY answer, 29 bytes (09 R163). -/
def Grant.entryBytes (g : Grant) (p : PortIx) : List Byte :=
  handleBytes (some (g.handle p)) ++ [toByte g.state.code] ++ be32 g.f ++ be16 g.tol ++ [toByte g.policy.code] ++ be16 (g.fd.getD 0) ++
  leaseBytes g.lease ++ bindingBytes g.binding ++ [groupByte g.group] ++ retuneBytes g.retune

/-- The entries of a list of ports, for those that hold a grant (01 R25). -/
def State.queryEntries (s : State) (ports : List PortIx) : List (List Byte) :=
  ports.filterMap (fun p => (s.grantAt p).map (fun g => g.entryBytes p))

/-- An entry of a NOTICES answer (09 R164): reason and generation are 0 for every kind but RETIRED. -/
def noticeEntry (place : Place) (kind : NoticeKind) (n : Notice) (reason gen : Byte) : List Byte :=
  [toByte place.code, toByte kind.code, toByte n.seq.val, reason, gen]

def RetireReason.code : RetireReason → Nat
  | .leaseExpired => 1
  | .forced => 2

/-- The nine port kinds in the order of Table 8-1. -/
def allPortKinds : List PortKind :=
  [.ready, .degraded, .restored, .holdover, .rescued, .stranded, .retuned, .retuneFailed, .retired]

/-- The reason and generation bytes of a port kind in a NOTICES entry. -/
def PortNotices.tail (n : PortNotices) (k : PortKind) : Byte × Byte :=
  match k, n.retired with
  | .retired, some r => (toByte r.reason.code, toByte r.gen.val)
  | _, _ => (0x00#8, 0x00#8)

/-- The entries of one line (08 R146). -/
def PortNotices.entries (n : PortNotices) (place : Place) : List (List Byte) :=
  (allPortKinds.filter (fun k => (rd n.kinds k.index).pending)).map (fun k =>
    noticeEntry place (.port k) (rd n.kinds k.index) (n.tail k).1 (n.tail k).2)

/-- The entries of the slot kinds (08 R146). -/
def SlotNotices.entries (n : SlotNotices) : List (List Byte) :=
  (if n.restarted.pending then [noticeEntry .slot (.slot .restarted) n.restarted 0 0] else []) ++
  (if n.continued.pending then [noticeEntry .slot (.slot .continued) n.continued 0 0] else [])

/-- The entries of a NOTICES answer: slot kinds, line A, line B (08 R146). -/
def State.noticeEntries (s : State) (slot : SlotIx) : List (List Byte) :=
  (rd s.notices.slots slot).entries ++ (rd s.notices.ports (portOf slot .a)).entries .lineA ++
  (rd s.notices.ports (portOf slot .b)).entries .lineB

/-- A count byte and the entries (09 R163, R164; 10 R175). -/
def listBytes (entries : List (List Byte)) : List Byte := toByte entries.length :: entries.flatten

/-! ### Responses on the maintenance port -/

def MaintStatus.code : MaintStatus → Nat
  | .ok => 0
  | .inUse => 1
  | .badValue => 2
  | .notQuarantined => 3
  | .stale => 4
  | .activeReference => 5

/-- NOT_READY (Table 10-2). -/
def notReady : Byte := 0x0F#8

/-- A response with an empty payload (10 R175). -/
def Response.bare (status : MaintStatus) : Response := { status := status, payload := [] }

/-- An OK response. -/
def Response.ok (payload : List Byte) : Response := { status := .ok, payload := payload }

/-- A one-byte field, all ones when absent: for ranges that include 0 (10 R175). -/
def optByte (n : Option Nat) : Byte :=
  match n with
  | some n => toByte n
  | none => 0xFF#8

/-- A one-byte field, 0 when absent: for ranges that exclude 0 (10 R175). -/
def optByte0 (n : Option Nat) : Byte := toByte (n.getD 0)

/-- A handle, all ones across its two bytes when absent: its range includes 0 (10 R175). -/
def optHandle (h : Option Handle) : List Byte :=
  match h with
  | some h => handleBytes (some h)
  | none => [0xFF#8, 0xFF#8]

/-- A four-byte remaining time, all ones when absent (10 R175). -/
def optTime (n : Option Nat) : List Byte :=
  match n with
  | some n => be32 n
  | none => [0xFF#8, 0xFF#8, 0xFF#8, 0xFF#8]

/-- A mark or yes/no value, all ones when absent (10 R175). -/
def optMark (b : Option Bool) : Byte := optByte (b.map codeBool)

/-- A signed error in two's complement, beyond ±32,767 given as ±32,767 (Table 10-2). -/
def errorNumber (e : Int) : BitVec 16 := BitVec.ofInt 16 (max (-32767) (min 32767 e))

/-- The two bytes of a 16-bit value, most significant first. -/
def word16 (v : BitVec 16) : List Byte := be16 v.toNat

/-- An error field: 0x8000 is NO_ACTIVITY, all ones when absent (Table 10-2, 10 R175). -/
def errorBytes (e : Option WindowError) : List Byte :=
  match e with
  | some (.ppm x) => word16 (errorNumber x)
  | some .noActivity => [0x80#8, 0x00#8]
  | none => [0xFF#8, 0xFF#8]

/-- A derived frequency in whole hertz; above four bytes the value sent is free (log 8). -/
def hertzBytes (hz : Nat) : List Byte :=
  if hz < 4294967296 then be32 hz else be32 (Config.overflowHertz hz).toNat

def LoopState.code : LoopState → Nat
  | .idle => 0
  | .waiting => 1
  | .acquiring => 2
  | .tracking => 3
  | .locked => 4
  | .holdover => 5

def FailCause.code : FailCause → Nat
  | .acquireTimeout => 0
  | .holdoverExpired => 1

def TimerKind.code : TimerKind → Nat
  | .acquire => 0
  | .settle => 1
  | .holdover => 2

/-- The code of a mode: AUTO, TIMED (Table 2-1). -/
def lockModeCode : LockMode → Nat
  | .auto => 0
  | .timed _ => 1

def Role.code : Role → Nat
  | .current => 0
  | .retuneTarget => 1

def PortState.code : PortState → Nat
  | .off => 0
  | .running => 1
  | .switching => 2

def RefState.code : RefState → Nat
  | .disabled => 0
  | .misfit => 1
  | .absent => 2
  | .outOfRange => 3
  | .qualifying => 4
  | .qualified => 5

/-- The status of a plan entry as the port reports it: EMPTY, VALID, OUT_OF_BAND, DISABLED (02 R31, R35; log 23). -/
def planStatusCode (e : Option PlanEntry) : Nat :=
  match e with
  | none => 0
  | some e =>
    match e.status with
    | .valid => 1
    | .outOfBand => 2
    | .disabled => 3

/-- The station reference, coded XO, REFA, REFB, NONE (10 R177). -/
def stationByte (r : Option Ref) : Byte :=
  match r with
  | some r => toByte r.code
  | none => 0x03#8

/-- A list of loops (10 R175). -/
def loopList (l : List LoopIx) : List Byte := listBytes (l.map (fun k => [toByte k.val]))

/-- IDENTIFY's payload (10 R177). The continuity jumper is coded as the continuity setting is, OFF 0x00 and ON 0x01 (log 23). -/
def State.identifyBytes (s : State) : List Byte :=
  [0x43#8, 0x53#8, 0x36#8, 0x31#8, 0x32#8, toByte (Config.hardwareRevisionLessOne.val + 1), toByte s.restart.jumpers.address.val,
   toByte (codeBool s.restart.jumpers.continuity), toByte s.restart.jumpers.qualification.code, toByte (codeBool s.restart.continuity),
   toByte (codeBool s.maint.hold), toByte (codeBool s.maint.allowAcks), stationByte s.station.station, toByte s.liveGrants,
   toByte s.runningLoops.length, toByte (allLoops.countP (fun k => (s.loop k).failed.isSome))]

/-- The selector's own values, as SET_PRIORITY reports them (07 R136; log 23). -/
def StationBlock.selectorBytes (b : StationBlock) : List Byte :=
  [stationByte b.station] ++ listBytes (b.priority.map (fun r => [toByte r.code])) ++ [toByte b.mode.code] ++ be16 b.restoreDelay ++
  [optByte (b.restore.map (fun r => r.candidate.code))] ++ optTime (b.restore.map Restore.remaining)

/-- One reference in READ_REFERENCES (07 R139). Table 10-2 gives the pre-divider no size: two bytes are sent (log 23). -/
def RefRec.bytes (r : RefRec) : List Byte :=
  [toByte (codeBool r.enabled)] ++ be32 r.nominal ++ be16 (r.preDivider.getD 0) ++ [toByte r.state.code] ++ optTime r.qualTimer ++
  errorBytes r.lastError

/-- READ_REFERENCES' payload (07 R139). -/
def StationBlock.bytes (b : StationBlock) : List Byte :=
  (b.ref .xo).bytes ++ (b.ref .refa).bytes ++ (b.ref .refb).bytes ++ be32 b.rate ++ [toByte b.period.code] ++ b.selectorBytes

/-- The settle time of a mode. -/
def lockModeSettle (m : LockMode) : Option Nat :=
  match m with
  | .auto => none
  | .timed t => some t

/-- READ_PLAN's payload for an entry (02 R35; log 23). -/
def planBytes (e : Option PlanEntry) (rate : Nat) : List Byte :=
  [toByte (planStatusCode e)] ++
  (match e with
   | some e =>
     [toByte e.r] ++ be16 e.n ++ [toByte e.p, toByte e.e, toByte e.l, toByte (lockModeCode e.mode)] ++ be16 ((lockModeSettle e.mode).getD 0) ++
     hertzBytes (e.freqNum rate / e.effR) ++ [toByte (codeBool (e.freqNum rate % e.effR == 0))] ++ be32 (e.l * 2 ^ e.e * 1000000)
   | none => [0xFF#8, 0xFF#8, 0xFF#8, 0xFF#8, 0xFF#8, 0xFF#8, 0xFF#8] ++ be16 0 ++ be32 0 ++ [0xFF#8] ++ be32 0)

/-- The plan entry a loop runs on. -/
def State.runEntry (s : State) (k : LoopIx) : Option PlanEntry := (s.loop k).run.bind (fun r => rd s.plan r.entry)

/-- The derived frequency of a loop's entry with its mark of exactness (03 R69). -/
def State.loopHertzBytes (s : State) (k : LoopIx) : List Byte :=
  match s.runEntry k with
  | some e => hertzBytes (e.freqNum s.station.rate / e.effR) ++ [toByte (codeBool (e.freqNum s.station.rate % e.effR == 0))]
  | none => be32 0 ++ [0xFF#8]

/-- A binding in READ_LOOP (03 R69). -/
def Binding.bytes (b : Binding) : List Byte := handleBytes (some b.handle) ++ [toByte b.d, toByte b.role.code]

/-- READ_LOOP's payload (03 R69; log 23). -/
def State.loopBytes (s : State) (k : LoopIx) : List Byte :=
  let l := s.loop k
  [toByte l.state.code, toByte (codeBool l.failed.isSome), optByte (l.failed.map FailCause.code), optByte (l.run.map (fun r => r.entry.val)),
   optByte (l.run.map (fun r => lockModeCode r.mode))] ++ s.loopHertzBytes k ++ [toByte l.good] ++ errorBytes l.lastError ++
  [optByte (l.timer.map (fun t => t.kind.code))] ++ optTime (l.timer.map LoopTimer.remaining) ++
  [optMark (l.timer.map (fun _ => l.paused))] ++ listBytes ((s.list k).map Binding.bytes) ++
  be16 s.loops.acquireLimit ++ be16 s.loops.holdoverLimit

/-- A source in READ_PORT, six bytes (04 R86). -/
def Source.bytes (src : Source) : List Byte :=
  match src with
  | .none => [0x00#8, 0xFF#8, 0x00#8, 0x00#8] ++ be16 0
  | .loop k d g => [0x01#8, toByte k.val, toByte d, groupByte g] ++ be16 0
  | .fallback fd => [0x02#8, 0xFF#8, 0x00#8, 0x00#8] ++ be16 fd

/-- The line frequency READ_PORT reports (04 R86). -/
def State.lineHertz (s : State) (p : PortIx) : Nat :=
  let r := rd s.switch.ports p
  if r.inStasis || s.silent p then 0
  else
    match r.current with
    | .none => 0
    | .fallback fd => s.station.rate / fd
    | .loop k d _ =>
      match s.runEntry k with
      | some e => e.freqNum s.station.rate / (e.effR * d)
      | none => 0

/-- The group to which a port's current source or target is aligned (04 R86; log 23). -/
def PortRec.alignedGroup (r : PortRec) : Option GroupIx :=
  match r.current.group with
  | some g => some g
  | none => r.switching.bind (fun sw => sw.target.group)

/-- The group divider in READ_PORT (04 R86). -/
def dividerBytes (dv : Option GroupDivider) : List Byte :=
  match dv with
  | some dv => [toByte dv.loop.val] ++ be16 dv.value ++ be16 (dv.pendingValue.getD 0)
  | none => [0xFF#8] ++ be16 0 ++ be16 0

/-- The switch of a SWITCHING port in READ_PORT: target, stasis begun, and target lost for a loop target (04 R86). -/
def switchingBytes (sw : Option Switching) : List Byte :=
  match sw with
  | some sw =>
    sw.target.bytes ++ [toByte (codeBool sw.stasis)] ++
    (match sw.target with
     | .loop _ _ _ => [toByte (codeBool sw.lost)]
     | .none => [0xFF#8]
     | .fallback _ => [0xFF#8])
  | none => [0xFF#8, 0xFF#8, 0x00#8, 0x00#8] ++ be16 0 ++ [0xFF#8, 0xFF#8]

/-- READ_PORT's payload (04 R86; log 23). -/
def State.portBytes (s : State) (p : PortIx) : List Byte :=
  let r := rd s.switch.ports p
  [toByte p.val, toByte r.state.code] ++ r.current.bytes ++ switchingBytes r.switching ++ [toByte (codeBool (s.silent p))] ++
  hertzBytes (s.lineHertz p) ++ dividerBytes (r.alignedGroup.bind (fun g => rd s.switch.dividers g)) ++
  optHandle ((s.grantAt p).map (fun g => g.handle p))

/-- The bindings of a handle on the six lists, with loop and position counted from 1 (10 R178). -/
def State.bindingsOf (s : State) (h : Handle) : List (LoopIx × Nat × Binding) :=
  allLoops.flatMap (fun k => ((s.list k).zipIdx 1).filterMap (fun x => if x.1.handle = h then some (k, x.2, x.1) else none))

/-- A binding in READ_GRANT (10 R178). -/
def placedBytes (x : LoopIx × Nat × Binding) : List Byte :=
  [toByte x.1.val, toByte x.2.2.role.code, toByte x.2.1, toByte x.2.2.d]

/-- The retune's own fields in READ_GRANT: the new divider, then target loop, entry, divider and cut-over (10 R178). -/
def retuneDetail (r : Option Retune) : List Byte :=
  match r with
  | none => [0xFF#8, 0xFF#8, 0xFF#8, 0xFF#8, 0xFF#8]
  | some (.sameLoop d _ _) => [toByte d, 0xFF#8, 0xFF#8, 0xFF#8, 0xFF#8]
  | some (.newLoop t _ _ cut) =>
    [0xFF#8] ++ bindingBytes (some t) ++ [match cut with
      | .awaitingLock => 0x00#8
      | .inFlight => 0x01#8]

/-- READ_GRANT's payload for a port (10 R178). -/
def State.grantBytes (s : State) (p : PortIx) : List Byte :=
  [toByte (rd s.engine.generations p).val] ++
  (match s.grantAt p with
   | none => [0x00#8]
   | some g =>
     let bs := s.bindingsOf (g.handle p)
     [0x01#8] ++ g.entryBytes p ++ [toByte (codeBool g.mark)] ++ retuneDetail g.retune ++
     listBytes ((bs.filter (fun x => x.2.2.role == .current) ++ bs.filter (fun x => x.2.2.role == .retuneTarget)).map placedBytes))

/-- The sweep of the grant table (10 R178). -/
def State.sweepBytes (s : State) : List Byte :=
  listBytes (allPorts.filterMap (fun p => (s.grantAt p).map (fun g => handleBytes (some (g.handle p)) ++ [toByte g.state.code])))

/-- A notice kind in READ_NOTICES (08 R152). -/
def Notice.bytes (n : Notice) : List Byte := [toByte (codeBool n.pending), toByte n.seq.val]

/-- RETIRED's reason and generation in READ_NOTICES: absent, the reason is coded none and the generation is all ones (08 R152; log 23). -/
def retiredBytes (r : Option Retired) : List Byte :=
  match r with
  | some r => [toByte r.reason.code, toByte r.gen.val]
  | none => [0x00#8, 0xFF#8]

/-- READ_NOTICES' payload (08 R152). The state of the ATTN line, the last byte, is coded 0x01 asserted and 0x00 released (log 23). -/
def State.noticesBytes (s : State) (slot : SlotIx) : List Byte :=
  let sl := rd s.notices.slots slot
  let a := rd s.notices.ports (portOf slot .a)
  let b := rd s.notices.ports (portOf slot .b)
  sl.restarted.bytes ++ sl.continued.bytes ++ (allPortKinds.map (fun k => (rd a.kinds k.index).bytes)).flatten ++
  (allPortKinds.map (fun k => (rd b.kinds k.index).bytes)).flatten ++ retiredBytes a.retired ++ retiredBytes b.retired ++
  [toByte (codeBool (s.attn slot))]

/-- The latched cause, or the report that none is latched (08 R151, R152). -/
def latchedByte (a : Attention) : Byte := optByte (a.latched.map (fun c => c.index.val))

/-- READ_ATTENTION's payload (08 R152). The state of ALERT, the second byte, is coded 0x01 asserted and 0x00 released (log 23). -/
def Attention.bytes (a : Attention) : List Byte :=
  [latchedByte a, toByte (codeBool a.latched.isSome)] ++
  (allCauses.map (fun c => [toByte (codeBool (a.pendingCause c)), toByte (rd a.counts c.index)])).flatten

/-- READ_CAUSE's payload: a count and the members in order (11 R188). -/
def Causes.bytes (c : Causes) : List Byte :=
  listBytes (([(c.power, 0), (c.supply, 1), (c.panel, 2), (c.command, 3), (c.chassis, 4), (c.continued, 5)].filter
    (fun x => x.1)).map (fun x => [toByte x.2]))

/-- The first bytes of a read transfer, before 0xFF for each further byte (10 R173, R174): the response once the card is RUNNING, else
NOT_READY. The port sends nothing while the supply is held (10 R170). -/
def State.readTransfer (s : State) : List Byte :=
  match s.restart.startUp, s.maint.response with
  | .running, some r => [toByte r.status.code, toByte r.payload.length] ++ r.payload
  | .running, none => [notReady]
  | .settling, _ => [notReady]
  | .restarting, _ => [notReady]
  | .supplyHeld, _ => []

/-- The bytes of a read transfer in which the controller reads n bytes: 0xFF for each byte beyond the first ones (10 R173). -/
def State.readBytes (s : State) (n : Nat) : List Byte :=
  if s.restart.startUp = .supplyHeld then [] else (s.readTransfer ++ List.replicate n 0xFF#8).take n

/-- The bus address the port acknowledges (10 R170); none while the supply is held. -/
def State.busAddress (s : State) : Option Nat :=
  if s.restart.startUp = .supplyHeld then none else some (0x58 + s.restart.jumpers.address.val)

end Sys2Proof.Machine
end

