-- ==== Sys2Proof/Machine/SlotRequests.lean ====
section
/-! DEFINITION. The eight slot requests at their owners, and the rows that are slot requests (01 R8 to R25; 06 R109 to R123; 08 R146, R147; 09 R157 to R166). -/

namespace Sys2Proof.Machine

/-! ### Shared checks -/

/-- The handle's port is one of the slot's two ports (01 R4); a request without a handle names none of them. -/
def ownHandle (slot : SlotIx) (h : Option Handle) : Option Handle :=
  match h with
  | some h => if slotOf h.port = slot then some h else none
  | none => none

/-- A target a slot may ask for (01 R8 step 2, 06 R109 step 2). -/
def targetInRange (f tol : Nat) : Bool := 1 ≤ f && f ≤ 250000000 && 1 ≤ tol && tol ≤ 500

/-- A lease period (06 R122). -/
def periodInRange (p : Nat) : Bool := 1 ≤ p && p ≤ 3600

/-- The status with which a failed allocation is refused (01 R10). -/
def State.refusal (s : State) (f tol : Nat) : LinkStatus :=
  if anyEntrySatisfies s.plan s.station.rate f tol then .noLoop else .noMatch

/-! ### HELLO (09 R166) -/

/-- The slot's live grants (09 R166). -/
def State.slotGrants (s : State) (slot : SlotIx) : Nat := [portOf slot .a, portOf slot .b].countP (fun p => (s.grantAt p).isSome)

/-- Both ports of a slot retired in one action, line A before line B (01 R24). -/
def State.retireSlot (s : State) (slot : SlotIx) (why : RetireWhy) : State :=
  s.oneMoment (fun s => (s.retire (portOf slot .a) why).retire (portOf slot .b) why)

/-- The notice unit's records replaced by a function. -/
def State.withNotices (s : State) (f : NoticeUnit → NoticeUnit) : State := { s with notices := f s.notices }

/-- HELLO at its owners (09 R166). -/
def State.serveHello (s : State) (slot : SlotIx) (keep : Bool) : State × Answer :=
  if s.maint.hold then (s, Answer.bare .held)
  else
    (if keep then s.withNotices (fun u => u.clearSlotKinds slot)
     else (s.retireSlot slot .helloDrop).withNotices (fun u => (u.clearSlotPorts slot).clearSlotKinds slot),
     Answer.ok [toByte (s.slotGrants slot)])

/-! ### REQUEST (01 R8 to R16; 09 R160) -/

/-- The values of a REQUEST that step 2 of 01 R8 refuses with BAD_REQUEST. -/
def requestAcceptable (a : RequestArgs) : Bool :=
  targetInRange a.f a.tol &&
  (match a.policy with
   | .fallback => decide (1 ≤ a.fd ∧ a.fd ≤ 65535)
   | .stop => a.fd == 0
   | .keep => a.fd == 0) &&
  (a.lease == 0 || periodInRange a.lease)

/-- The fallback divider of a new grant: present exactly when the policy is FALLBACK (01 R2). -/
def fallbackDividerOf (a : RequestArgs) : Option Nat :=
  match a.policy with
  | .fallback => some a.fd
  | .stop => none
  | .keep => none

/-- The lease of a new grant, its remaining time at the full period (01 R11). -/
def leaseOf (a : RequestArgs) : Option Lease :=
  if a.lease = 0 then none else some { period := a.lease, remaining := a.lease * 1000 }

/-- The record of a new grant (01 R11 step 2). -/
def newGrantOf (a : RequestArgs) (gen : Mod16) (b : GrantBinding) (group : Option GroupIx) : Grant :=
  { gen := gen, state := .pending, f := a.f, tol := a.tol, policy := a.policy, fd := fallbackDividerOf a, lease := leaseOf a,
    binding := some b, group := group, retune := none, mark := false }

/-- The generation the next grant of a port takes (01 R3). -/
def State.nextGen (s : State) (p : PortIx) : Mod16 := Mod16.next (rd s.engine.generations p)

/-- Steps 1 to 3 of 01 R11: the generation, the record, the binding with its start. -/
def State.addGrant (s : State) (p : PortIx) (a : RequestArgs) (b : GrantBinding) (group : Option GroupIx) : State :=
  let gen := s.nextGen p
  let s := { s with engine := { s.engine with generations := wr s.engine.generations p gen } }
  (s.setGrant p (some (newGrantOf a gen b group))).appendBinding b.loop b.entry { handle := { port := p, gen := gen }, d := b.d, role := .current }

/-- The answer to an accepted REQUEST: handle, PENDING, remaining lease time, group (09 R160). -/
def requestAnswer (p : PortIx) (gen : Mod16) (a : RequestArgs) (group : Option GroupIx) : Answer :=
  Answer.ok (handleBytes (some { port := p, gen := gen }) ++ [toByte GrantState.pending.code] ++ be32 (a.lease * 1000) ++ [groupByte group])

/-- An unaligned grant created (01 R11). -/
def State.create (s : State) (p : PortIx) (a : RequestArgs) (b : GrantBinding) : State × Answer :=
  ((s.addGrant p a b none).requestByState p, requestAnswer p (s.nextGen p) a none)

/-- The lowest group id not in use (01 R13). -/
def State.freeGroup (s : State) : Option GroupIx := allGroups.find? (fun gi => (rd s.engine.groups gi).isNone)

/-- Whether a grant's port is running from its loop (01 R15): ACTIVE, or DEGRADED with policy KEEP. -/
def Grant.onItsLoop (g : Grant) : Bool := g.state == .active || (g.state == .degraded && g.policy == .keep)

/-- A group formed of the grant H and the new grant (01 R15). -/
def State.formGroup (s : State) (p : PortIx) (a : RequestArgs) (b : GrantBinding) (hd : Handle) (h : Grant) (gi : GroupIx) (v : Nat) :
    State × Answer :=
  let gen := s.nextGen p
  let s := s.addGrant p a b (some gi)
  let s := s.setGroup gi (some { loop := b.loop, g := v, members := [hd, { port := p, gen := gen }] })
  let s := s.updGrant hd.port (fun g => { g with group := some gi })
  let s := (s.giveDivider gi b.loop v).requestByState p
  (if h.onItsLoop then s.requestByState hd.port else s, requestAnswer p gen a (some gi))

/-- The new grant joins the group of H (01 R16). -/
def State.joinGroup (s : State) (p : PortIx) (a : RequestArgs) (b : GrantBinding) (gi : GroupIx) (gr : Group) (v : Nat) : State × Answer :=
  let gen := s.nextGen p
  let s := s.addGrant p a b (some gi)
  let s := s.setGroup gi (some { gr with g := v, members := gr.members ++ [{ port := p, gen := gen }] })
  let s := if v = gr.g then s else s.giveDivider gi b.loop v
  (s.requestByState p, requestAnswer p gen a (some gi))

/-- The dividers of the members of a group (01 R14 step 7). -/
def State.memberDividers (s : State) (members : List Handle) : List Nat :=
  members.flatMap (fun h =>
    match s.grantAt h.port with
    | some g => g.groupDividers
    | none => [])

/-- Steps 3 to 7 of 01 R14 for a grant H whose CURRENT binding is `hb`, and the group formed or joined (01 R15, R16). -/
def State.alignBound (s : State) (p : PortIx) (a : RequestArgs) (hd : Handle) (h : Grant) (hb : GrantBinding) : State × Answer :=
  if (s.loop hb.loop).state = .holdover then (s, Answer.bare .noLoop)
  else
    match matchEntry s.plan s.station.rate hb.entry a.f a.tol with
    | none => (s, Answer.bare .noMatch)
    | some d =>
      let b : GrantBinding := { loop := hb.loop, entry := hb.entry, d := d }
      match s.groupOf h with
      | some (gi, gr) =>
        if 8 ≤ gr.members.length then (s, Answer.bare .alignRefused)
        else
          let v := lcmOf (d :: gr.g :: s.memberDividers gr.members)
          if maxGroupDivider < v then (s, Answer.bare .alignRefused) else s.joinGroup p a b gi gr v
      | none =>
        match s.freeGroup with
        | none => (s, Answer.bare .alignRefused)
        | some gi =>
          let v := lcmOf (d :: h.groupDividers)
          if maxGroupDivider < v then (s, Answer.bare .alignRefused) else s.formGroup p a b hd h gi v

/-- An aligned REQUEST after steps 1 to 3 of 01 R8: steps 1 and 2 of 01 R14, then the rest. -/
def State.serveAligned (s : State) (p : PortIx) (a : RequestArgs) (hd : Handle) : State × Answer :=
  match s.resolve hd with
  | none => (s, Answer.bare .stale)
  | some h =>
    match h.binding, h.retune with
    | none, _ => (s, Answer.bare .alignRefused)
    | some _, some (.newLoop _ _ _ _) => (s, Answer.bare .alignRefused)
    | some hb, some (.sameLoop _ _ _) => if h.state = .stranded then (s, Answer.bare .alignRefused) else s.alignBound p a hd h hb
    | some hb, none => if h.state = .stranded then (s, Answer.bare .alignRefused) else s.alignBound p a hd h hb

/-- REQUEST at the grant engine (01 R8). -/
def State.serveRequest (s : State) (slot : SlotIx) (a : RequestArgs) : State × Answer :=
  let p := portOf slot a.line
  if s.maint.hold then (s, Answer.bare .held)
  else if requestAcceptable a = false then (s, Answer.bare .badRequest)
  else if (s.grantAt p).isSome then (s, Answer.bare .inUse)
  else
    match a.align with
    | some hd => s.serveAligned p a hd
    | none =>
      match s.allocate a.f a.tol none with
      | some b => s.create p a b
      | none => (s, Answer.bare (s.refusal a.f a.tol))

/-! ### RETUNE (06 R109 to R120; 09 R161) -/

/-- The answer to an accepted RETUNE (06 R120, 09 R161). -/
def retuneAnswer (h : Handle) (state : GrantState) (form : RetuneForm) (inFlight : Bool) (b : Option GrantBinding) : Answer :=
  Answer.ok (handleBytes (some h) ++ [toByte state.code, toByte form.code, toByte (codeBool inFlight)] ++ bindingBytes b)

/-- RETUNE of a STRANDED grant (06 R110). -/
def State.retuneFresh (s : State) (h : Handle) (f tol : Nat) : State × Answer :=
  match s.allocate f tol none with
  | some b =>
    let s := (s.updGrant h.port (fun g => { g with f := f, tol := tol, state := .pending })).bindCurrent h.port b
    (s.requestByState h.port, retuneAnswer h .pending .fresh false (some b))
  | none => (s, Answer.bare (s.refusal f tol))

/-- Attempt (a): same binding (06 R111). -/
def State.retuneSameBinding (s : State) (h : Handle) (g : Grant) (f tol : Nat) : State × Answer :=
  ((s.updGrant h.port (fun g => { g with f := f, tol := tol })).raiseRetuned h.port, retuneAnswer h g.state .sameBinding false none)

/-- The value formed for a grouped grant at attempt (b): G, the new divider, and the SAME_LOOP dividers of the other members (06 R112). -/
def State.retuneValue (s : State) (h : Handle) (gr : Group) (d : Nat) : Nat :=
  lcmOf (gr.g :: d :: (gr.members.filter (fun m => m != h)).flatMap (fun m =>
    match s.grantAt m.port with
    | some g => g.sameLoopDivider.toList
    | none => []))

/-- Whether a value exceeds the one in force or pending at the port switch unit (06 R112; log 16). -/
def GroupDivider.below (dv : Option GroupDivider) (v : Nat) : Bool :=
  match dv with
  | none => true
  | some dv =>
    match dv.pendingValue with
    | some pv => decide (dv.value < v) || decide (pv < v)
    | none => decide (dv.value < v)

/-- Attempt (b) for a grant that is not ACTIVE: carried out at once (06 R112). -/
def State.retuneAtOnce (s : State) (h : Handle) (b : GrantBinding) (group : Option (GroupIx × Group)) (v d f tol : Nat) : State :=
  let s := s.applyDivider h.port d f tol
  let s := match group with
    | some (gi, _) => if GroupDivider.below (rd s.switch.dividers gi) v then s.giveDivider gi b.loop v else s
    | none => s
  s.requestByState h.port

/-- Attempt (b) for an ACTIVE grant: a SAME_LOOP record (06 R113). -/
def State.retuneInFlight (s : State) (h : Handle) (b : GrantBinding) (group : Option (GroupIx × Group)) (v d f tol : Nat) : State :=
  let s := s.updGrant h.port (fun g => { g with retune := some (.sameLoop d f tol) })
  let s := match group with
    | some (gi, _) => s.giveDivider gi b.loop v
    | none => s
  s.requestByState h.port

/-- Attempt (b): same loop, new divider (06 R112, R113). -/
def State.retuneSameLoop (s : State) (h : Handle) (g : Grant) (b : GrantBinding) (d f tol : Nat) : State × Answer :=
  let group := s.groupOf g
  let v := match group with
    | some (_, gr) => s.retuneValue h gr d
    | none => d
  if group.isSome ∧ maxGroupDivider < v then (s, Answer.bare .alignRefused)
  else if g.state = .active then (s.retuneInFlight h b group v d f tol, retuneAnswer h g.state .sameLoop true none)
  else (s.retuneAtOnce h b group v d f tol, retuneAnswer h g.state .sameLoop false (some { b with d := d }))

/-- Attempt (c): another loop (06 R115). -/
def State.retuneNewLoop (s : State) (h : Handle) (g : Grant) (t : GrantBinding) (f tol : Nat) : State × Answer :=
  let s := s.updGrant h.port (fun g => { g with retune := some (.newLoop t f tol .awaitingLock) })
  let s := s.appendBinding t.loop t.entry { handle := h, d := t.d, role := .retuneTarget }
  (if (s.loop t.loop).state = .locked then s.setCutOver h.port .inFlight else s, retuneAnswer h g.state .newLoop true none)

/-- Attempt (d): allow-gap restart (06 R118). -/
def State.retuneRestart (s : State) (h : Handle) (b : GrantBinding) (entry : EntryIx) (d f tol : Nat) : State × Answer :=
  let nb : GrantBinding := { loop := b.loop, entry := entry, d := d }
  let s := s.restartLoop b.loop entry
  let s := s.setBindingDivider b.loop h d
  let s := s.updGrant h.port (fun g => { g with binding := some nb, f := f, tol := tol, state := .pending, mark := true })
  (s.requestByState h.port, retuneAnswer h .pending .restart false (some nb))

/-- Attempts (c) to (e) for an ungrouped grant (06 R115, R118, R119). -/
def State.retuneElsewhere (s : State) (h : Handle) (g : Grant) (b : GrantBinding) (f tol : Nat) (allowGap : Bool) : State × Answer :=
  match s.allocate f tol (some b.loop) with
  | some t => s.retuneNewLoop h g t f tol
  | none =>
    match findEntry s.plan s.station.rate f tol with
    | none => (s, Answer.bare .noMatch)
    | some (entry, d) =>
      if allowGap ∧ (s.list b.loop).length = 1 then s.retuneRestart h b entry d f tol else (s, Answer.bare .noLoop)

/-- The attempts of 06 R111 for a bound grant. -/
def State.retuneBound (s : State) (h : Handle) (g : Grant) (b : GrantBinding) (f tol : Nat) (allowGap : Bool) : State × Answer :=
  match matchEntry s.plan s.station.rate b.entry f tol with
  | some d => if d = b.d then s.retuneSameBinding h g f tol else s.retuneSameLoop h g b d f tol
  | none => if g.group.isSome then (s, Answer.bare .alignRefused) else s.retuneElsewhere h g b f tol allowGap

/-- RETUNE at the grant engine (06 R109). -/
def State.serveRetune (s : State) (slot : SlotIx) (a : RetuneArgs) : State × Answer :=
  if s.maint.hold then (s, Answer.bare .held)
  else
    match ownHandle slot a.handle with
    | none => (s, Answer.bare .badRequest)
    | some h =>
      if targetInRange a.f a.tol = false then (s, Answer.bare .badRequest)
      else
        match s.resolve h with
        | none => (s, Answer.bare .stale)
        | some g =>
          if g.retune.isSome then (s, Answer.bare .retuneBusy)
          else
            match g.binding with
            | none => s.retuneFresh h a.f a.tol
            | some b => s.retuneBound h g b a.f a.tol a.allowGap

/-! ### RELEASE, RENEW, QUERY (01 R20, R25; 06 R123; 09 R162, R163) -/

/-- RELEASE at the grant engine (01 R20). -/
def State.serveRelease (s : State) (slot : SlotIx) (h : Option Handle) : State × Answer :=
  if s.maint.hold then (s, Answer.bare .held)
  else
    match ownHandle slot h with
    | none => (s, Answer.bare .badRequest)
    | some h =>
      match s.resolve h with
      | none => (s, Answer.bare .stale)
      | some _ => (s.retire h.port .release, Answer.ok [])

/-- The lease after a renewal (06 R123 step 5); a period of 0 keeps the existing one. -/
def Lease.renewed (l : Lease) (period : Nat) : Lease :=
  let p := if period = 0 then l.period else period
  { period := p, remaining := p * 1000 }

/-- RENEW at the grant engine (06 R123). -/
def State.serveRenew (s : State) (slot : SlotIx) (h : Option Handle) (period : Nat) : State × Answer :=
  if s.maint.hold then (s, Answer.bare .held)
  else
    match ownHandle slot h with
    | none => (s, Answer.bare .badRequest)
    | some h =>
      if period ≠ 0 ∧ periodInRange period = false then (s, Answer.bare .badRequest)
      else
        match s.resolve h with
        | none => (s, Answer.bare .stale)
        | some g =>
          match g.lease with
          | none => (s, Answer.bare .notLeased)
          | some l =>
            (s.updGrant h.port (fun g => { g with lease := some (l.renewed period) }),
             Answer.ok (be16 (l.renewed period).period ++ be32 (l.renewed period).remaining))

/-- The ports a QUERY asks for (09 R163). -/
def queryPorts (slot : SlotIx) (line : Option Line) : List PortIx :=
  match line with
  | none => [portOf slot .a, portOf slot .b]
  | some l => [portOf slot l]

/-- QUERY at the grant engine (01 R25). -/
def State.serveQuery (s : State) (slot : SlotIx) (line : Option Line) : State × Answer :=
  (s, Answer.ok (listBytes (s.queryEntries (queryPorts slot line))))

/-! ### NOTICES and ACK (08 R146, R147; 09 R164, R165) -/

/-- NOTICES at the notice unit (08 R146). -/
def State.serveNotices (s : State) (slot : SlotIx) : State × Answer := (s, Answer.ok (listBytes (s.noticeEntries slot)))

/-- The notice a place and a kind name, with the update that clears it; none when a port kind is named for SLOT or a slot kind for a line
(08 R147 step 2). -/
def NoticeUnit.locate (u : NoticeUnit) (slot : SlotIx) (place : Place) (kind : NoticeKind) : Option (Notice × NoticeUnit) :=
  match place, kind with
  | .slot, .slot .restarted =>
    some ((rd u.slots slot).restarted, { u with slots := upd u.slots slot (fun n => { n with restarted := n.restarted.cleared }) })
  | .slot, .slot .continued =>
    some ((rd u.slots slot).continued, { u with slots := upd u.slots slot (fun n => { n with continued := n.continued.cleared }) })
  | .lineA, .port k =>
    some (rd (rd u.ports (portOf slot .a)).kinds k.index,
      { u with ports := upd u.ports (portOf slot .a) (fun n => { n with kinds := upd n.kinds k.index Notice.cleared }) })
  | .lineB, .port k =>
    some (rd (rd u.ports (portOf slot .b)).kinds k.index,
      { u with ports := upd u.ports (portOf slot .b) (fun n => { n with kinds := upd n.kinds k.index Notice.cleared }) })
  | .slot, .port _ => none
  | .lineA, .slot _ => none
  | .lineB, .slot _ => none

/-- ACK at the notice unit (08 R147). -/
def State.serveAck (s : State) (slot : SlotIx) (place : Place) (kind : NoticeKind) (seq : Nat) : State × Answer :=
  if s.maint.hold ∧ s.maint.allowAcks = false then (s, Answer.bare .held)
  else
    match s.notices.locate slot place kind with
    | none => (s, Answer.bare .badRequest)
    | some (n, cleared) =>
      if 15 < seq then (s, Answer.bare .badRequest)
      else if n.pending = false then (s, Answer.ok [])
      else if n.seq.val = seq then ({ s with notices := cleared }, Answer.ok [])
      else (s, { status := .staleNotice, payload := [toByte n.seq.val] })

/-! ### The link around its owners (09 R156 to R158) -/

/-- A slot request handed to its owner (Table 9-4). -/
def State.serve (s : State) (slot : SlotIx) (r : SlotReq) : State × Answer :=
  match r with
  | .hello keep => s.serveHello slot keep
  | .request a => s.serveRequest slot a
  | .retune a => s.serveRetune slot a
  | .release h => s.serveRelease slot h
  | .renew h period => s.serveRenew slot h period
  | .query line => s.serveQuery slot line
  | .notices => s.serveNotices slot
  | .ack place kind seq => s.serveAck slot place kind seq

/-- The link record of a slot. -/
def State.link (s : State) (slot : SlotIx) : LinkRec := rd s.links slot

/-- The link record of a slot changed. -/
def State.updLink (s : State) (slot : SlotIx) (f : LinkRec → LinkRec) : State := { s with links := upd s.links slot f }

/-- An answer becomes the link's current answer (09 R157). -/
def State.answer (s : State) (slot : SlotIx) (tag : Tag) (a : Answer) : State :=
  s.updLink slot (fun l => { l with current := some { frame := answerBytes tag a.status.code a.payload, sent := 0 } })

/-- A refused frame's tag becomes the held BUSY tag (09 R158). -/
def State.holdBusy (s : State) (slot : SlotIx) (tag : Tag) : State := s.updLink slot (fun l => { l with busyTag := some tag })

/-- A request taken by its owner in the action in which its frame is taken, and answered (09 R157 step 3). -/
def State.takeRequest (s : State) (slot : SlotIx) (tag : Tag) (r : SlotReq) : State := (s.serve slot r).1.answer slot tag (s.serve slot r).2

/-- A good frame that arrives: refused while the link is WORKING (09 R158), else taken (R157). -/
def State.requestArrives (s : State) (slot : SlotIx) (tag : Tag) (r : SlotReq) : State :=
  if (s.link slot).working then s.holdBusy slot tag else s.takeRequest slot tag r

/-- Any frame that arrives (09 R157, R158). -/
def State.frameArrives (s : State) (slot : SlotIx) (f : RawFrame) : State :=
  if (s.link slot).working then
    if f.checkOk then s.holdBusy slot (headTag f.head) else s
  else if f.checkOk = false then s.answer slot (headTag f.head) (Answer.bare .linkError)
  else
    match parseRequest (headKind f.head) f.payload with
    | some r => s.takeRequest slot (headTag f.head) r
    | none => s.answer slot (headTag f.head) (Answer.bare .badRequest)

/-- Whether a frame can complete at a receiver: it is hunting, or has received an initial part of the frame's bytes (09 R156; log 10). -/
def Receiver.awaits (r : Receiver) (bytes : List Byte) : Bool :=
  match r with
  | .hunting => true
  | .receiving got => got.isPrefixOf bytes && got.length < bytes.length

/-- Whether the frame of a row can arrive at a link: it listens, and its receiver awaits the frame (09 R154, R156; log 10). -/
def State.canReceive (s : State) (slot : SlotIx) (f : RawFrame) : Bool :=
  (s.link slot).listening && (s.link slot).receiver.awaits f.tail

/-- The receiver goes back to hunting (09 R156). -/
def State.hunt (s : State) (slot : SlotIx) : State := s.updLink slot (fun l => { l with receiver := .hunting })

/-- The arrival of the frame that carries a slot request (09 R156 to R158; log 10). -/
def State.slotRequest (s : State) (slot : SlotIx) (tag : Tag) (r : SlotReq) : State :=
  if s.canReceive slot (requestFrame tag r) then (s.hunt slot).requestArrives slot tag r else s

/-! ### The rows -/

/-- HELLO (09 R166). -/
def execHello (slot : SlotIx) (tag : Tag) (keep : Bool) (s : State) : Outcome := .next (s.slotRequest slot tag (.hello keep))

/-- REQUEST (01 R8). -/
def execRequest (slot : SlotIx) (tag : Tag) (args : RequestArgs) (s : State) : Outcome := .next (s.slotRequest slot tag (.request args))

/-- RETUNE (06 R109). -/
def execRetune (slot : SlotIx) (tag : Tag) (args : RetuneArgs) (s : State) : Outcome := .next (s.slotRequest slot tag (.retune args))

/-- RELEASE (01 R20). -/
def execRelease (slot : SlotIx) (tag : Tag) (handle : Option Handle) (s : State) : Outcome := .next (s.slotRequest slot tag (.release handle))

/-- RENEW (06 R123). -/
def execRenew (slot : SlotIx) (tag : Tag) (handle : Option Handle) (period : Nat) (s : State) : Outcome :=
  .next (s.slotRequest slot tag (.renew handle period))

/-- QUERY (01 R25). -/
def execQuery (slot : SlotIx) (tag : Tag) (line : Option Line) (s : State) : Outcome := .next (s.slotRequest slot tag (.query line))

/-- NOTICES (08 R146). -/
def execNotices (slot : SlotIx) (tag : Tag) (s : State) : Outcome := .next (s.slotRequest slot tag .notices)

/-- ACK (08 R147). -/
def execAck (slot : SlotIx) (tag : Tag) (place : Place) (kind : NoticeKind) (seq : Nat) (s : State) : Outcome :=
  .next (s.slotRequest slot tag (.ack place kind seq))

end Sys2Proof.Machine
end

