-- ==== Sys2Proof/WellFormed.lean ====
section
/-! DEFINITION. Well-formed commands: every operand fits the bytes that carry it, and a row that stands for a malformed frame or command carries one. -/

namespace Sys2Proof

/-- A frame whose length byte can say its payload's length (Table 9-1). -/
def RawFrame.wellFormed (f : RawFrame) : Bool := f.payload.length < 256

/-- Whether a frame is answered LINK_ERROR or BAD_REQUEST without reaching an owner (09 R157 steps 1 and 2). -/
def RawFrame.malformed (f : RawFrame) : Bool := !f.checkOk || (parseRequest (headKind f.head) f.payload).isNone

/-- REQUEST's numbers fit their fields (09 R160). -/
def RequestArgs.wellFormed (a : RequestArgs) : Bool :=
  a.f < 4294967296 && a.tol < 65536 && a.fd < 65536 && a.lease < 65536

/-- RETUNE's numbers fit their fields (09 R161). -/
def RetuneArgs.wellFormed (a : RetuneArgs) : Bool := a.f < 4294967296 && a.tol < 65536

/-- WRITE_PLAN's numbers fit their fields (10 Table 10-2). -/
def PlanArgs.wellFormed (a : PlanArgs) : Bool :=
  a.entry < 256 && a.r < 256 && a.n < 65536 && a.p < 256 && a.e < 256 && a.l < 256 && a.settle < 65536

/-- A slot request whose numbers fit their fields. -/
def SlotReq.wellFormed : SlotReq → Bool
  | .hello _ => true
  | .request a => a.wellFormed
  | .retune a => a.wellFormed
  | .release _ => true
  | .renew _ period => period < 65536
  | .query _ => true
  | .notices => true
  | .ack _ _ seq => seq < 256

/-- The well-formed commands. -/
def Instr.wellFormed : Instr → Bool
  | .hello _ _ keep => (SlotReq.hello keep).wellFormed
  | .request _ _ a => a.wellFormed
  | .retune _ _ a => a.wellFormed
  | .release _ _ h => (SlotReq.release h).wellFormed
  | .renew _ _ _ period => period < 65536
  | .query _ _ line => (SlotReq.query line).wellFormed
  | .notices _ _ => true
  | .ack _ _ _ _ seq => seq < 256
  | .linkError _ f => f.wellFormed && f.malformed
  | .frameRefusedBusy _ f => f.wellFormed
  | .frameGapTimeout _ => true
  | .framingErrorDiscard _ => true
  | .answerSent _ => true
  | .busyAnswerSent _ => true
  | .presentAsserted _ => true
  | .slotLoss _ => true
  | .identify => true
  | .setStation rate => rate < 4294967296
  | .setReference _ nominal _ => nominal < 4294967296
  | .setPriority _ _ _ _ delay => delay < 65536
  | .setQualify _ => true
  | .writePlan a => a.wellFormed
  | .erasePlan e => e < 256
  | .readPlan e => e < 256
  | .setLimits a h => a < 65536 && h < 65536
  | .readReferences => true
  | .readLoop k => k < 256
  | .readPort p => p < 256
  | .readGrant none => true
  | .readGrant (some p) => p < 256
  | .readNotices s => s < 256
  | .readAttention => true
  | .ackAttention _ => true
  | .readCause => true
  | .forceRetire _ => true
  | .clearLoop k => k < 256
  | .holdOn _ => true
  | .holdOff _ => true
  | .setContinuity _ => true
  | .restart => true
  | .commandFormError bytes => !bytes.isEmpty && (parseCommand bytes).isNone
  | .loopWindow _ _ => true
  | .settleTimerExpiry _ => true
  | .acquireTimeout _ => true
  | .holdoverExpired _ => true
  | .lockGained _ => true
  | .lockLost _ => true
  | .holdoverEntered _ => true
  | .holdoverEnded _ => true
  | .stasisBegins _ => true
  | .portSwitchCompletes _ => true
  | .groupRollover _ => true
  | .switchCompletion _ => true
  | .switchVoid _ => true
  | .leaseExpiry _ => true
  | .referenceWindow ref _ => ref != .xo
  | .qualificationTimerExpiry ref => ref != .xo
  | .restoreTimerExpiry => true
  | .supplyApplied _ => true
  | .supplyTrip => true
  | .supplyRecovery _ => true
  | .xoSettleExpiry => true
  | .restartTimerExpiry => true
  | .panelRestart => true
  | .panelRestartRelease => true
  | .chassisReset => true
  | .chassisResetRelease => true
  | .requestByteReceived _ _ _ => true
  | .writeTransfer _ => true

end Sys2Proof
end

