-- ==== Sys2Proof/Machine/LinkRows.lean ====
section
/-! DEFINITION. The rows of the slot links that are not slot requests: malformed and refused frames, received bytes, sent answers, and the PRESENT lines (09 R156 to R158, R167). -/

namespace Sys2Proof.Machine

/-- LINK_ERROR: a malformed frame arrives while the link is IDLE (09 R157 steps 1 and 2; log 12). -/
def execLinkError (slot : SlotIx) (frame : RawFrame) (s : State) : Outcome :=
  .next (if s.canReceive slot frame ∧ (s.link slot).working = false ∧ frame.malformed then (s.hunt slot).frameArrives slot frame else s)

/-- FRAME_REFUSED_BUSY: a frame arrives while the link is WORKING (09 R158; log 12). -/
def execFrameRefusedBusy (slot : SlotIx) (frame : RawFrame) (s : State) : Outcome :=
  .next (if s.canReceive slot frame ∧ (s.link slot).working then (s.hunt slot).frameArrives slot frame else s)

/-- FRAME_GAP_TIMEOUT: a gap longer than 50 µs discards the frame in reception (09 R156). -/
def execFrameGapTimeout (slot : SlotIx) (s : State) : Outcome := .next (s.hunt slot)

/-- FRAMING_ERROR_DISCARD: a framing error discards the frame in reception (09 R156). -/
def execFramingErrorDiscard (slot : SlotIx) (s : State) : Outcome := .next (s.hunt slot)

/-- The BUSY answer frame for a tag (09 R158). -/
def busyFrame (tag : Tag) : List Byte := answerBytes tag LinkStatus.busy.code []

/-- A link whose current answer has been sent whole: IDLE, and the held BUSY tag goes into transmission (09 R157, R158). -/
def LinkRec.answerSent (l : LinkRec) : LinkRec :=
  if l.working ∧ l.busyTx = none then
    { l with current := none, busyTag := none, busyTx := l.busyTag.map (fun tag => { frame := busyFrame tag, sent := 0 }) }
  else l

/-- ANSWER_SENT (09 R157, R158): while a BUSY answer is on the answer wire the current answer has not begun (log 5, 25). -/
def execAnswerSent (slot : SlotIx) (s : State) : Outcome := .next (s.updLink slot LinkRec.answerSent)

/-- BUSY_ANSWER_SENT: the BUSY answer's last byte has been sent (09 R158). -/
def execBusyAnswerSent (slot : SlotIx) (s : State) : Outcome := .next (s.updLink slot (fun l => { l with busyTx := none }))

/-- The PRESENT line of a slot set to a level. -/
def State.setPresent (s : State) (slot : SlotIx) (level : Bool) : State := { s with present := wr s.present slot level }

/-- PRESENT_ASSERTED: outside start-up the link begins listening with its receiver hunting (09 R167; log 26). -/
def execPresentAsserted (slot : SlotIx) (s : State) : Outcome :=
  .next (if s.isRunning ∧ rd s.present slot = false then
      (s.setPresent slot true).updLink slot (fun l => { l with listening := true, receiver := .hunting })
    else s.setPresent slot true)

/-- The slot's notice kinds cleared, port kinds and slot kinds (08 R144). -/
def NoticeUnit.clearSlot (u : NoticeUnit) (slot : SlotIx) : NoticeUnit := (u.clearSlotPorts slot).clearSlotKinds slot

/-- SLOT_LOSS: outside start-up the link is reset and mute, the slot's grants are retired and its notices cleared (09 R167; log 26). -/
def execSlotLoss (slot : SlotIx) (s : State) : Outcome :=
  .next (if s.isRunning then
      (((s.setPresent slot false).updLink slot (fun _ => LinkRec.mute)).retireSlot slot .slotLoss).withNotices (fun u => u.clearSlot slot)
    else s.setPresent slot false)

/-- A byte at a receiver that is receiving: the frame it completes, if any, with the receiver after it (09 R156). -/
def State.byteReceived (s : State) (slot : SlotIx) (got : List Byte) (byte : Byte) : State :=
  match frameOf (got ++ [byte]) with
  | some f => (s.hunt slot).frameArrives slot f
  | none => s.updLink slot (fun l => { l with receiver := .receiving (got ++ [byte]) })

/-- REQUEST_BYTE_RECEIVED: one byte from the request wire, with its framing error if it has one (09 R156). -/
def execRequestByteReceived (slot : SlotIx) (byte : Byte) (framingError : Bool) (s : State) : Outcome :=
  .next (if (s.link slot).listening then
      match (s.link slot).receiver with
      | .hunting =>
        if byte = startByte ∧ framingError = false then s.updLink slot (fun l => { l with receiver := .receiving [] }) else s
      | .receiving got => if framingError then s.hunt slot else s.byteReceived slot got byte
    else s)

end Sys2Proof.Machine
end

