-- ==== Sys2Proof/Machine/Rescue.lean ====
section
/-! DEFINITION. Loop failure and rescue: the walk of a failing loop's binding list and the loop's passage to quarantine (03 R66, 05 R99 to R105). -/

namespace Sys2Proof.Machine

/-- A grant stranded (05 R105): no binding, STRANDED with its notice and its attention cause, its port requested by that state. -/
def State.strand (s : State) (k : LoopIx) (p : PortIx) : State :=
  match s.grantAt p with
  | none => s
  | some g =>
    let s := s.removeBinding k (g.handle p)
    let s := s.updGrant p (fun g => { g with binding := none, state := .stranded, retune := none, mark := false })
    ((s.raise p .stranded).raiseCause .grantStranded).requestByState p

/-- A RETUNE_TARGET binding on the failing loop: the retune is abandoned (05 R100). -/
def State.abandonTarget (s : State) (k : LoopIx) (h : Handle) : State :=
  (((s.removeBinding k h).updGrant h.port (fun g => { g with retune := none })).raise h.port .retuneFailed).requestByState h.port

/-- A NEW_LOOP retune takes over at the failure of its grant's own loop (05 R101). -/
def State.takeOver (s : State) (k : LoopIx) (h : Handle) (t : GrantBinding) (f tol : Nat) : State :=
  (((s.targetBecomesCurrent t.loop h).removeBinding k h).updGrant h.port (fun g =>
    { g with binding := some t, f := f, tol := tol, retune := none, mark := true, state := .pending })).requestByState h.port

/-- A SAME_LOOP retune in flight abandoned, with RETUNE_FAILED (05 R102, R103). -/
def State.abandonSameLoop (s : State) (p : PortIx) : State :=
  match s.grantAt p with
  | none => s
  | some g =>
    match g.retune with
    | some (.sameLoop _ _ _) => (s.updGrant p (fun g => { g with retune := none })).raise p .retuneFailed
    | some (.newLoop _ _ _ _) => s
    | none => s

/-- The rescue of an ungrouped grant by allocation (05 R102). -/
def State.rescueAlone (s : State) (k : LoopIx) (h : Handle) : State :=
  let s := s.abandonSameLoop h.port
  match s.grantAt h.port with
  | none => s
  | some g =>
    match s.allocate g.f g.tol (some k) with
    | some b =>
      let s := (s.removeBinding k h).bindCurrent h.port b
      ((s.updGrant h.port (fun g => { g with state := .pending })).raise h.port .rescued).requestByState h.port
    | none => s.strand k h.port

/-- The dividers with which an entry serves every member of a group, when their least common multiple is within the limit (05 R103). -/
def State.servesGroup (s : State) (members : List Handle) (i : EntryIx) : Option (List Nat) :=
  match members.mapM (fun h => (s.grantAt h.port).bind (fun g => matchEntry s.plan s.station.rate i g.f g.tol)) with
  | some ds => if lcmOf ds ≤ maxGroupDivider then some ds else none
  | none => none

/-- Step 1 of 05 R104 for one member: its binding moves to the tail of the found loop's list. -/
def State.moveBinding (s : State) (k k' : LoopIx) (entry : EntryIx) (h : Handle) (d : Nat) : State :=
  (s.removeBinding k h).appendBinding k' entry { handle := h, d := d, role := .current }

/-- Step 2 of 05 R104 for one member: its binding field, PENDING and RESCUED. -/
def State.moveGrant (s : State) (k' : LoopIx) (entry : EntryIx) (h : Handle) (d : Nat) : State :=
  (s.updGrant h.port (fun g => { g with binding := some { loop := k', entry := entry, d := d }, state := .pending })).raise h.port .rescued

/-- The group moved in one action (05 R104). -/
def State.moveGroup (s : State) (k : LoopIx) (gi : GroupIx) (gr : Group) (k' : LoopIx) (entry : EntryIx) (ds : List Nat) : State :=
  let members := gr.members.zip ds
  let s := members.foldl (fun s m => s.moveBinding k k' entry m.1 m.2) s
  let s := members.foldl (fun s m => s.moveGrant k' entry m.1 m.2) s
  let s := (s.setGroup gi (some { gr with loop := k', g := lcmOf ds })).giveDivider gi k' (lcmOf ds)
  gr.members.foldl (fun s h => s.requestByState h.port) s

/-- The rescue of an alignment group as a unit (05 R103, R104). -/
def State.rescueGroup (s : State) (k : LoopIx) (gi : GroupIx) (gr : Group) : State :=
  let s := gr.members.foldl (fun s h => s.abandonSameLoop h.port) s
  match searchLoops s.loops.loops (some k) (s.servesGroup gr.members) with
  | some (k', entry, ds) => s.moveGroup k gi gr k' entry ds
  | none => (gr.members.foldl (fun s h => s.strand k h.port) s).dissolveGroup gi

/-- The rescue of one binding of the failing loop (05 R99 to R103). A binding whose handle names no grant only leaves the list. -/
def State.rescueBinding (s : State) (k : LoopIx) (b : Binding) : State :=
  match s.resolve b.handle, b.role with
  | none, _ => s.removeBinding k b.handle
  | some _, .retuneTarget => s.abandonTarget k b.handle
  | some g, .current =>
    match g.retune with
    | some (.newLoop t f tol _) => s.takeOver k b.handle t f tol
    | some (.sameLoop _ _ _) | none =>
      match s.groupOf g with
      | some (gi, gr) => s.rescueGroup k gi gr
      | none => s.rescueAlone k b.handle

/-- The rescue walk (05 R88, R99): a binding that the walk itself has removed is not visited. -/
def State.rescue (s : State) (k : LoopIx) : State :=
  (s.list k).foldl (fun s b => if (s.list k).any (fun x => x.handle == b.handle) then s.rescueBinding k b else s) s

/-- Step 1 of 03 R66: quarantined with its cause, timers cleared. -/
def State.markFailed (s : State) (k : LoopIx) (cause : FailCause) : State :=
  s.setLoop k { s.loop k with failed := some cause, timer := none }

/-- Step 3 of 03 R66: the loop goes to IDLE, still quarantined, and the ports see it go. -/
def State.quarantine (s : State) (k : LoopIx) (cause : FailCause) : State :=
  (s.setLoop k { LoopRec.idle with failed := some cause }).portsLoopIdle k

/-- Steps 1 and 2 of 03 R66, as one action: the loop's lock events not yet taken are taken first (03 R65; log 14). -/
def State.failAndRescue (s : State) (k : LoopIx) (cause : FailCause) : State :=
  s.oneMoment (fun s => ((s.takeAllLocks k).markFailed k cause).rescue k)

/-- A loop failure (03 R66). -/
def State.failLoop (s : State) (k : LoopIx) (cause : FailCause) : State :=
  (((s.failAndRescue k cause).quarantine k cause).raiseCause .loopFailed).fillLatch

end Sys2Proof.Machine
end

