-- ==== Sys2Proof/Machine/LoopRows.lean ====
section
/-! DEFINITION. The rows at the loops: comparison windows, timer expiries, and the lock events the grant engine takes (03 R49 to R57, R66; 05 R92 to R98). -/

namespace Sys2Proof.Machine

/-- Whether a window completes at a loop (03 R49): ACQUIRING, TRACKING, LOCKED, or HOLDOVER with its station reference returned (R63). -/
def LoopRec.hasWindows (l : LoopRec) (station : Option Ref) : Bool :=
  match l.state with
  | .acquiring => true
  | .tracking => true
  | .locked => true
  | .holdover => station.isSome
  | .idle => false
  | .waiting => false

/-- Whether a window lies within a threshold in ppm; NO_ACTIVITY lies beyond every one (03 R49, Table 3-3). -/
def WindowError.within (e : WindowError) (limit : Nat) : Bool :=
  match e with
  | .ppm x => x.natAbs ≤ limit
  | .noActivity => false

/-- Lock lost (03 R52, R63): to TRACKING within the coarse threshold, else to ACQUIRING, with a full acquire timer. -/
def LoopRec.loseLock (l : LoopRec) (acquireLimit : Nat) (e : WindowError) : LoopRec × List LockEvent :=
  let st : LoopState := if WindowError.within e 600 then .tracking else .acquiring
  ({ l with state := st, good := 0, timer := some { kind := .acquire, remaining := acquireLimit } }, [{ kind := .lost, state := st }])

/-- A window judged by an AUTO loop (03 R50 to R52, R63). -/
def LoopRec.judge (l : LoopRec) (acquireLimit : Nat) (e : WindowError) : LoopRec × List LockEvent :=
  match l.state with
  | .acquiring =>
    if WindowError.within e 300 then ({ l with state := .tracking, good := if WindowError.within e 20 then 1 else 0 }, [])
    else ({ l with good := 0 }, [])
  | .tracking =>
    if WindowError.within e 600 = false then ({ l with state := .acquiring, good := 0 }, [])
    else if WindowError.within e 20 = false then ({ l with good := 0 }, [])
    else if l.good + 1 = 4 then ({ l with state := .locked, good := 4, timer := none }, [{ kind := .gained, state := .locked }])
    else ({ l with good := l.good + 1 }, [])
  | .locked => if WindowError.within e 60 then (l, []) else l.loseLock acquireLimit e
  | .holdover =>
    if WindowError.within e 60 then ({ l with state := .locked, good := 4 }, [{ kind := .holdoverEnded, state := .locked }])
    else l.loseLock acquireLimit e
  | .idle => (l, [])
  | .waiting => (l, [])

/-- A window at a loop: the last window error, then the judgement of an AUTO loop; a TIMED loop judges none (03 R49, R53). -/
def LoopRec.window (l : LoopRec) (acquireLimit : Nat) (e : WindowError) : LoopRec × List LockEvent :=
  match l.run.map Run.mode with
  | some .auto => { l with lastError := some e }.judge acquireLimit e
  | some (.timed _) => ({ l with lastError := some e }, [])
  | none => ({ l with lastError := some e }, [])

/-- Loop k changed, with its lock events raised. -/
def State.setLoopWith (s : State) (k : LoopIx) (x : LoopRec × List LockEvent) : State :=
  { s with loops := { s.loops with loops := wr s.loops.loops k x.1, events := upd s.loops.events k (fun l => l ++ x.2) } }

/-- The timer of loop k has run out: of the kind given, at 0, with the hold off (03 R54, R58). -/
def State.loopTimerOut (s : State) (k : LoopIx) (kind : TimerKind) : Bool :=
  s.isRunning && !s.maint.hold && (s.loop k).timer == some { kind := kind, remaining := 0 }

/-- LOOP_WINDOW (03 R49 to R53, R63). -/
def execLoopWindow (k : LoopIx) (e : WindowError) (s : State) : Outcome :=
  .next (if s.isRunning ∧ (s.loop k).hasWindows s.station.station then
      s.setLoopWith k ((s.loop k).window s.loops.acquireLimit e)
    else s)

/-- SETTLE_TIMER_EXPIRY: a TIMED loop in ACQUIRING goes to LOCKED and raises lock gained (03 R56). -/
def execSettleTimerExpiry (k : LoopIx) (s : State) : Outcome :=
  .next (if s.loopTimerOut k .settle ∧ (s.loop k).state = .acquiring then
      s.setLoopWith k ({ s.loop k with state := .locked, timer := none }, [{ kind := .gained, state := .locked }])
    else s)

/-- ACQUIRE_TIMEOUT: a loop failure in ACQUIRING or TRACKING (03 R55, R66). -/
def execAcquireTimeout (k : LoopIx) (s : State) : Outcome :=
  .next (if s.loopTimerOut k .acquire ∧ ((s.loop k).state = .acquiring ∨ (s.loop k).state = .tracking) then s.failLoop k .acquireTimeout
    else s)

/-- HOLDOVER_EXPIRED: a loop failure in HOLDOVER (03 R57, R66). -/
def execHoldoverExpired (k : LoopIx) (s : State) : Outcome :=
  .next (if s.loopTimerOut k .holdover ∧ (s.loop k).state = .holdover then s.failLoop k .holdoverExpired else s)

/-- LOCK_GAINED taken by the grant engine (05 R92). -/
def execLockGained (k : LoopIx) (s : State) : Outcome := .next (if s.isRunning then s.takeNextLock k .gained else s)

/-- LOCK_LOST taken by the grant engine (05 R94 to R96). -/
def execLockLost (k : LoopIx) (s : State) : Outcome := .next (if s.isRunning then s.takeNextLock k .lost else s)

/-- HOLDOVER_ENTERED taken by the grant engine (05 R97). -/
def execHoldoverEntered (k : LoopIx) (s : State) : Outcome := .next (if s.isRunning then s.takeNextLock k .holdoverEntered else s)

/-- HOLDOVER_ENDED taken by the grant engine (05 R98). -/
def execHoldoverEnded (k : LoopIx) (s : State) : Outcome := .next (if s.isRunning then s.takeNextLock k .holdoverEnded else s)

end Sys2Proof.Machine
end

