-- ==== Sys2Proof/Machine/Selector.lean ====
section
/-! DEFINITION. The reference monitors and the station selector, with the changes of the station reference at the loops and the ports (chapter 7; 03 R59 to R64; 04 R85). -/

namespace Sys2Proof.Machine

/-! ### Fit and judgement (07 R127, R129) -/

/-- The pre-divider of a nominal frequency at a station rate, when it fits (07 R127). -/
def fit (nominal rate : Nat) : Option Nat :=
  if nominal % rate = 0 ∧ 1 ≤ nominal / rate ∧ nominal / rate ≤ 65535 then some (nominal / rate) else none

/-- The judgement of a reference restarted (07 R127): fitted when enabled, its timer and last error cleared. -/
def RefRec.judgeAfresh (r : RefRec) (ref : Ref) (rate : Nat) : RefRec :=
  if r.enabled then
    match fit r.nominal rate with
    | some q =>
      { r with preDivider := some q, state := if ref = .xo then .qualified else .absent, qualTimer := none, lastError := none }
    | none => { r with preDivider := none, state := .misfit, qualTimer := none, lastError := none }
  else { r with preDivider := none, state := .disabled, qualTimer := none, lastError := none }

/-- The reference of an index of the bank. -/
def refAt (i : Fin 3) : Ref :=
  match i with
  | 0 => .xo
  | 1 => .refa
  | 2 => .refb

/-- Every reference judged afresh at a rate (07 R138, R140). -/
def StationBlock.judgeAll (b : StationBlock) (rate : Nat) : StationBlock :=
  { b with rate := rate, refs := mapCells (fun i r => r.judgeAfresh (refAt i) rate) b.refs }

/-- Whether a monitor completes windows (07 R128). -/
def RefRec.hasWindows (r : RefRec) : Bool :=
  match r.state with
  | .absent => true
  | .outOfRange => true
  | .qualifying => true
  | .qualified => true
  | .disabled => false
  | .misfit => false

/-- The qualification period in ms (07 R131). -/
def qualMs : QualPeriod → Nat
  | .long => 1000
  | .short => 100

/-- A window judged (Table 7-4). -/
def RefRec.window (r : RefRec) (period : QualPeriod) (e : WindowError) : RefRec :=
  match e with
  | .noActivity => { r with lastError := some e, state := .absent, qualTimer := none }
  | .ppm x =>
    if 100 < x.natAbs then { r with lastError := some e, state := .outOfRange, qualTimer := none }
    else
      match r.state with
      | .absent => { r with lastError := some e, state := .qualifying, qualTimer := some (qualMs period) }
      | .outOfRange => { r with lastError := some e, state := .qualifying, qualTimer := some (qualMs period) }
      | .qualifying => { r with lastError := some e }
      | .qualified => { r with lastError := some e }
      | .disabled => { r with lastError := some e }
      | .misfit => { r with lastError := some e }

/-- The qualification timer has expired (07 R130). -/
def RefRec.qualify (r : RefRec) : RefRec := { r with state := .qualified, qualTimer := none }

/-- A reference record replaced. -/
def StationBlock.setRef (b : StationBlock) (r : Ref) (x : RefRec) : StationBlock := { b with refs := wr b.refs (refIx r) x }

/-! ### The station reference handed to the loops (03 R59 to R64) -/

/-- The kinds of change of the station reference (03 section 3.5). -/
inductive StationChange where
  | switched | lost | returned
  deriving DecidableEq, Repr

/-- The change from one station reference to another, if it is one. -/
def stationChange (old new : Option Ref) : Option StationChange :=
  match old, new with
  | some a, some b => if a = b then none else some .switched
  | some _, none => some .lost
  | none, some _ => some .returned
  | none, none => none

/-- A loop at a change of the station reference, with the lock events it raises (03 R59, R61 to R64). -/
def LoopRec.stationChanged (l : LoopRec) (holdoverLimit : Nat) (c : StationChange) : LoopRec × List LockEvent :=
  match c with
  | .switched => (if l.state = .tracking then { l with good := 0 } else l, [])
  | .lost =>
    match l.state with
    | .locked =>
      ({ l with state := .holdover, timer := some { kind := .holdover, remaining := holdoverLimit * 1000 } },
       [{ kind := .holdoverEntered, state := .holdover }])
    | .acquiring => ({ l with state := .waiting, good := 0 }, [])
    | .tracking => ({ l with state := .waiting, good := 0 }, [])
    | .holdover => ({ l with timer := some { kind := .holdover, remaining := holdoverLimit * 1000 } }, [])
    | .waiting => (l, [])
    | .idle => (l, [])
  | .returned =>
    match l.state with
    | .waiting => ({ l with state := .acquiring, good := 0 }, [])
    | .holdover =>
      match l.run.map Run.mode with
      | some (.timed _) => ({ l with state := .locked, timer := none }, [{ kind := .holdoverEnded, state := .locked }])
      | some .auto => ({ l with timer := none }, [])
      | none => ({ l with timer := none }, [])
    | .acquiring => (l, [])
    | .tracking => (l, [])
    | .locked => (l, [])
    | .idle => (l, [])

/-- The six loops at a change of the station reference. -/
def LoopController.stationChanged (u : LoopController) (c : StationChange) : LoopController :=
  { u with loops := mapCells (fun _ l => (l.stationChanged u.holdoverLimit c).1) u.loops,
           events := mapCells (fun k l => l ++ ((rd u.loops k).stationChanged u.holdoverLimit c).2) u.events }

/-- The ports whose silent source has its edges again begin a count, those of one source together at its first edge (04 R74, R85). -/
def SwitchUnit.recoverFrom (u : SwitchUnit) (before after : State) : SwitchUnit :=
  (u.atAllPorts (PortRec.recover (fun src =>
    silentSource before.loops.loops before.station.station src && !silentSource after.loops.loops after.station.station src)
    (.begun u.starts))).begun

/-- The cause a change of the station reference raises (07 R135). -/
def StationChange.cause : StationChange → Cause
  | .switched => .stationSwitched
  | .returned => .stationSwitched
  | .lost => .stationNone

/-- The loops after a change of the station reference, the selector and its block as they were. -/
def State.loopsAt (s : State) (new : Option Ref) (c : StationChange) : State :=
  { s with station := { s.station with station := new }, loops := s.loops.stationChanged c }

/-- The station reference changed: at the loops, at the ports, and with its attention cause, in one action (07 R132, R135; 04 R85). -/
def State.changeStation (s : State) (new : Option Ref) : State :=
  match stationChange s.station.station new with
  | none => s
  | some c =>
    let t := s.loopsAt new c
    ({ t with switch := t.switch.recoverFrom s t }.advancePorts).raiseCause c.cause

/-! ### The choice (07 R133, R134) -/

/-- The highest-priority QUALIFIED reference. -/
def StationBlock.bestQualified (b : StationBlock) : Option Ref := b.priority.find? b.qualified

/-- The station reference after a change at the monitors (07 R133): kept while it is QUALIFIED, else the highest-priority QUALIFIED one. -/
def StationBlock.choice (b : StationBlock) : Option Ref :=
  match b.station with
  | some r => if b.qualified r then some r else b.bestQualified
  | none => b.bestQualified

/-- The restore candidate (07 R134). -/
def StationBlock.candidate (b : StationBlock) : Option Ref :=
  match b.mode, b.station with
  | .revertive, some a => (b.priority.takeWhile (fun r => r != a)).find? b.qualified
  | .revertive, none => none
  | .nonrevertive, _ => none

/-- The candidate evaluated again, with the restore timer (07 R134). -/
def StationBlock.evaluate (b : StationBlock) : StationBlock :=
  { b with restore :=
      match b.candidate, b.restore with
      | none, _ => none
      | some c, some r => if r.candidate = c then some r else some { candidate := c, remaining := b.restoreDelay * 1000 }
      | some c, none => some { candidate := c, remaining := b.restoreDelay * 1000 } }

/-- The candidate evaluated again, in the card's state. -/
def State.evaluateRestore (s : State) : State := { s with station := s.station.evaluate }

/-- The references that are QUALIFIED in a block and were not before. -/
def StationBlock.entered (before after : StationBlock) : List Ref :=
  [.xo, .refa, .refb].filter (fun r => after.qualified r && !before.qualified r)

/-- A change at the monitors taken by the selector in the same action: REFERENCE_QUALIFIED for each reference that enters QUALIFIED, the
choice, the candidate, and the latch (07 R130, R133 to R135). -/
def State.monitorsChange (s : State) (after : StationBlock) : State :=
  let raised := (s.station.entered after).foldl (fun s _ => s.raiseCause .referenceQualified) { s with station := after }
  ((raised.changeStation after.choice).evaluateRestore).fillLatch

/-- The record of one reference changed, and the change taken by the selector. -/
def State.changeRef (s : State) (r : Ref) (x : RefRec) : State := s.monitorsChange (s.station.setRef r x)

end Sys2Proof.Machine
end

