-- ==== Sys2Proof/Machine/StartUp.lean ====
section
/-! DEFINITION. Start-up, module restart and chassis reset under continuity: what each start does to every block (chapter 11). -/

namespace Sys2Proof.Machine

/-- The references and the selector while the card has lost its state: no station reference and no windows (11 R183, R185; log 20). -/
def StationBlock.lost : StationBlock :=
  { StationBlock.powerUp .long with
    station := none,
    refs := mapCells (fun _ r => { r with state := .misfit, preDivider := none }) (StationBlock.powerUp .long).refs }

/-- The port switch unit after a reset; the model's own counts of moments and of beginnings go on. -/
def SwitchUnit.reset (u : SwitchUnit) : SwitchUnit := { SwitchUnit.powerUp with draws := u.draws, starts := u.starts }

/-- Every block but the restart logic, the PRESENT lines and the queue at its power-up values, with no station reference yet (11 R185). -/
def State.blank (s : State) : State :=
  { s with station := StationBlock.lost, plan := fill 32 none, loops := LoopController.powerUp, switch := s.switch.reset,
           engine := GrantEngine.powerUp, notices := NoticeUnit.powerUp, maint := MaintPort.powerUp, links := fill 12 LinkRec.mute }

/-- The XO settle begun with the jumpers read (11 R184, R185). -/
def State.beginSettle (s : State) (jumpers : Jumpers) (causes : Causes) : State :=
  { s.blank with
    restart := { startUp := .settling, settleTimer := some 8, restartTimer := none, jumpers := jumpers,
                 continuity := jumpers.continuity, causes := causes, panelHeld := false, chassisHeld := false } }

/-- A trip of the supply monitor (11 R185; log 18, 20). -/
def State.trip (s : State) : State :=
  { s.blank with
    restart := { s.restart with startUp := .supplyHeld, settleTimer := none, restartTimer := none, causes := {},
                                panelHeld := false, chassisHeld := false } }

/-- Loops after a module restart: all IDLE, the limits kept (Table 3-5). -/
def LoopController.restarted (u : LoopController) : LoopController :=
  { LoopController.powerUp with acquireLimit := u.acquireLimit, holdoverLimit := u.holdoverLimit }

/-- The twelve links reset: each listens exactly when `listens` says so (09 R168). -/
def resetLinks (listens : Vector Bool 12) : Vector LinkRec 12 :=
  mapCells (fun slot _ => { LinkRec.mute with listening := rd listens slot }) (fill 12 LinkRec.mute)

/-- A restart cause added to the cause record (11 R188). -/
inductive RestartCause where
  | panel | command | chassis
  deriving DecidableEq, Repr

/-- The cause record with a restart cause added (11 R188). -/
def Causes.add (c : Causes) (r : RestartCause) : Causes :=
  match r with
  | .panel => { c with panel := true }
  | .command => { c with command := true }
  | .chassis => { c with chassis := true }

/-- A cause added to the record, in the card's state. -/
def State.addCause (s : State) (r : RestartCause) : State :=
  { s with restart := { s.restart with causes := s.restart.causes.add r } }

/-- The card at rest in RESTARTING (11 R186 steps 2 to 9), with the response that is kept. -/
def State.enterRestart (s : State) (kept : Option Response) : State :=
  { s with
    engine := GrantEngine.powerUp, loops := s.loops.restarted, switch := s.switch.reset, notices := NoticeUnit.powerUp,
    links := fill 12 LinkRec.mute, maint := { MaintPort.powerUp with response := kept },
    restart := { s.restart with startUp := .restarting, settleTimer := none, restartTimer := some 2 } }

/-- The response of an accepted RESTART. -/
def okEmpty : Response := { status := .ok, payload := [] }

/-- A module restart (11 R186): the OK response of the RESTART command that brought it about is kept (10 R174). -/
def State.moduleRestart (s : State) (r : RestartCause) : State :=
  (s.addCause r).enterRestart (match r with
    | .command => some okEmpty
    | .panel => none
    | .chassis => none)

/-- The end of start-up (11 R184 steps 3 to 5, R186): RESTARTED for each present slot, their links listening, RUNNING. -/
def State.openCard (s : State) : State :=
  { s with
    notices := s.notices.raiseForPresent s.present .restarted,
    links := resetLinks s.present,
    restart := { s.restart with startUp := .running, settleTimer := none, restartTimer := none } }

/-- The references after a module restart (07 R140): judged afresh, XO or NONE taken, no cause raised, then the candidate evaluated. -/
def StationBlock.restarted (b : StationBlock) : StationBlock :=
  let b := { b.judgeAll b.rate with restore := none }
  { b with station := b.bestQualified }.evaluate

/-- The end of a module restart (11 R186). -/
def State.endRestart (s : State) : State := { s with station := s.station.restarted }.openCard

/-- Every block at its power-up values (11 R184 steps 1 and 2); a response held for an absorbed RESTART stays (10 R174). -/
def State.powerUpValues (s : State) : State :=
  { s with
    restart := { s.restart with continuity := s.restart.jumpers.continuity },
    station := StationBlock.powerUp s.restart.jumpers.qualification,
    plan := fill 32 none, loops := LoopController.powerUp, switch := s.switch.reset, engine := GrantEngine.powerUp,
    notices := NoticeUnit.powerUp, maint := { MaintPort.powerUp with response := s.maint.response }, links := fill 12 LinkRec.mute }

/-- The settle timer has expired (11 R184): start-up ends, or the card enters RESTARTING while a restart request is held (R187; log 21). -/
def State.endSettle (s : State) : State :=
  if s.restart.restartHeld then s.powerUpValues.enterRestart s.maint.response else s.powerUpValues.openCard

/-- The restart timer has expired (11 R186): start-up ends unless a restart request is held. -/
def State.restartTimerOut (s : State) : State :=
  if s.restart.restartHeld then { s with restart := { s.restart with restartTimer := none } } else s.endRestart

/-- After a held restart request has been released (11 R186): a card that waited only for it ends start-up at once. -/
def State.afterRelease (s : State) : State :=
  if s.restart.startUp = .restarting ∧ s.restart.restartTimer = none ∧ s.restart.restartHeld = false then s.endRestart else s

/-- A restart request (11 R186, R187): begins a module restart when the card is RUNNING, and is absorbed in SETTLING and RESTARTING. -/
def State.restartRequest (s : State) (r : RestartCause) : State :=
  match s.restart.startUp with
  | .running => s.moduleRestart r
  | .settling => s.addCause r
  | .restarting => s.addCause r
  | .supplyHeld => s

/-- A chassis reset under continuity ON at a RUNNING card (11 R189). -/
def State.continueThrough (s : State) : State :=
  { s with
    links := resetLinks s.present,
    notices := s.notices.raiseForPresent s.present .continued,
    restart := { s.restart with causes := { s.restart.causes with continued := true } } }

end Sys2Proof.Machine
end

