-- ==== Sys2Proof/Machine/MaintRows.lean ====
section
/-! DEFINITION. The maintenance commands: what each owner does and answers, and the rows of the maintenance port (chapter 10; 02 R33 to R38; 03 R45, R68, R69; 04 R86; 07 R131, R136 to R139; 08 R151, R152; 11 R188, R190). -/

namespace Sys2Proof.Machine

/-! ### The port around the owners (10 R171, R174) -/

/-- The two buffers of the maintenance port set. -/
def State.setBuffers (s : State) (waiting : Option (List Byte)) (response : Option Response) : State :=
  { s with maint := { s.maint with waiting := waiting, response := response } }

/-- A command written and taken (10 R171, R174; log 11): in RUNNING its owner takes it and its response is placed; in SETTLING and RESTARTING it
is discarded and the response buffer emptied; while the supply is held nothing is acknowledged. -/
def State.command (s : State) (take : State → State × Response) : State :=
  match s.restart.startUp with
  | .running => (take s).1.setBuffers none (some (take s).2)
  | .settling => s.setBuffers none none
  | .restarting => s.setBuffers none none
  | .supplyHeld => s

/-- The cell of a bank that a number of a command names. -/
def inBank (n k : Nat) : Option (Fin n) := if h : k < n then some ⟨k, h⟩ else none

/-- A command that reads one cell of a bank: BAD_VALUE outside the bank, else OK with the payload, and nothing changes. -/
def State.readCell {n : Nat} (s : State) (k : Option (Fin n)) (payload : Fin n → List Byte) : State × Response :=
  match k with
  | some k => (s, Response.ok (payload k))
  | none => (s, Response.bare .badValue)

/-! ### The owners -/

/-- SET_STATION (02 R37, R38; 07 R138). -/
def State.takeSetStation (s : State) (rate : Nat) : State × Response :=
  if rate < 1000 ∨ 10000000 < rate then (s, Response.bare .badValue)
  else if s.runningLoops ≠ [] then (s, { status := .inUse, payload := loopList s.runningLoops })
  else
    (({ s with plan := mapCells (fun _ e => Option.map (fun e => PlanEntry.rejudge e rate) e) s.plan }).monitorsChange (s.station.judgeAll rate),
     Response.ok [])

/-- The nominal frequencies a reference may be given (07 R137 step 1). -/
def nominalInRange (ref : Ref) (nominal : Nat) : Bool :=
  match ref with
  | .xo => nominal == 40000000
  | .refa => decide (1000 ≤ nominal ∧ nominal ≤ 100000000)
  | .refb => decide (1000 ≤ nominal ∧ nominal ≤ 100000000)

/-- SET_REFERENCE (07 R137). -/
def State.takeSetReference (s : State) (ref : Ref) (nominal : Nat) (enabled : Bool) : State × Response :=
  let r := s.station.ref ref
  if nominalInRange ref nominal = false then (s, Response.bare .badValue)
  else if s.station.station = some ref ∧ nominal ≠ r.nominal then (s, Response.bare .activeReference)
  else if nominal = r.nominal ∧ enabled = r.enabled then (s, Response.ok [])
  else
    let x := { r with nominal := nominal, enabled := enabled }.judgeAfresh ref s.station.rate
    (s.changeRef ref x, Response.ok [toByte x.state.code])

/-- SET_PRIORITY (07 R136). -/
def State.takeSetPriority (s : State) (a b c : Ref) (mode : SelMode) (delay : Nat) : State × Response :=
  if a = b ∨ b = c ∨ a = c ∨ delay < 1 ∨ 600 < delay then (s, Response.bare .badValue)
  else
    let t := { s with station := { s.station with priority := [a, b, c], mode := mode, restoreDelay := delay } }.evaluateRestore
    (t, Response.ok t.station.selectorBytes)

/-- SET_QUALIFY (07 R131). -/
def State.takeSetQualify (s : State) (period : QualPeriod) : State × Response :=
  ({ s with station := { s.station with period := period } }, Response.ok [toByte period.code])

/-- The field ranges of WRITE_PLAN (02 R33 step 2). -/
def planInRange (a : PlanArgs) : Bool :=
  a.r ≤ 16 && a.n ≤ 4095 && a.p ≤ 3 && a.e ≤ 2 && a.l ≤ 255 &&
  (if a.timed then decide (1 ≤ a.settle ∧ a.settle ≤ 1000) else a.settle == 0)

/-- The entry WRITE_PLAN stores, with its status derived (02 R33 step 4). -/
def planEntryOf (a : PlanArgs) (rate : Nat) : PlanEntry :=
  let e : PlanEntry := { r := a.r, n := a.n, p := a.p, e := a.e, l := a.l, mode := if a.timed then .timed a.settle else .auto, status := .disabled }
  { e with status := e.derivedStatus rate }

/-- WRITE_PLAN (02 R33). -/
def State.takeWritePlan (s : State) (a : PlanArgs) : State × Response :=
  match inBank 32 a.entry with
  | none => (s, Response.bare .badValue)
  | some i =>
    if planInRange a = false then (s, Response.bare .badValue)
    else if s.loopsOnEntry i ≠ [] then (s, { status := .inUse, payload := loopList (s.loopsOnEntry i) })
    else
      ({ s with plan := wr s.plan i (some (planEntryOf a s.station.rate)) },
       Response.ok [toByte (planStatusCode (some (planEntryOf a s.station.rate)))])

/-- ERASE_PLAN (02 R34). -/
def State.takeErasePlan (s : State) (entry : Nat) : State × Response :=
  match inBank 32 entry with
  | none => (s, Response.bare .badValue)
  | some i =>
    if s.loopsOnEntry i ≠ [] then (s, { status := .inUse, payload := loopList (s.loopsOnEntry i) })
    else ({ s with plan := wr s.plan i none }, Response.ok [])

/-- READ_PLAN (02 R35). -/
def State.takeReadPlan (s : State) (entry : Nat) : State × Response :=
  s.readCell (inBank 32 entry) (fun i => planBytes (rd s.plan i) s.station.rate ++ loopList (s.loopsOnEntry i))

/-- SET_LIMITS (03 R45). -/
def State.takeSetLimits (s : State) (acquire holdover : Nat) : State × Response :=
  if acquire < 10 ∨ 5000 < acquire ∨ holdover < 1 ∨ 3600 < holdover then (s, Response.bare .badValue)
  else
    ({ s with loops := { s.loops with acquireLimit := acquire, holdoverLimit := holdover } }, Response.ok (be16 acquire ++ be16 holdover))

/-- READ_GRANT (10 R178): one port, or the sweep. -/
def State.takeReadGrant (s : State) (port : Option Nat) : State × Response :=
  match port with
  | some p => s.readCell (inBank 24 p) s.grantBytes
  | none => (s, Response.ok s.sweepBytes)

/-- The slot a slot number 1 to 12 names (08 R152). -/
def slotNumbered (n : Nat) : Option SlotIx := if n = 0 then none else inBank 12 (n - 1)

/-- ACK_ATTENTION (08 R151). -/
def State.takeAckAttention (s : State) (cause : Cause) : State × Response :=
  let a := s.maint.attention.acknowledge cause
  ({ s with maint := { s.maint with attention := a } }, Response.ok [latchedByte a])

/-- READ_CAUSE (11 R188): the record is emptied unless the hold is on (10 R182). -/
def State.takeReadCause (s : State) : State × Response :=
  (if s.maint.hold then s else { s with restart := { s.restart with causes := {} } }, Response.ok s.restart.causes.bytes)

/-- FORCE_RETIRE (10 R179). -/
def State.takeForceRetire (s : State) (handle : Option Handle) : State × Response :=
  match handle with
  | none => (s, Response.bare .badValue)
  | some h =>
    match s.resolve h with
    | none => (s, Response.bare .stale)
    | some _ => (s.retire h.port .forced, Response.ok [])

/-- CLEAR_LOOP (03 R68). -/
def State.takeClearLoop (s : State) (loop : Nat) : State × Response :=
  match inBank 6 loop with
  | none => (s, Response.bare .badValue)
  | some k =>
    if (s.loop k).failed = none then (s, Response.bare .notQuarantined)
    else (s.setLoop k { s.loop k with failed := none }, Response.ok [])

/-- The two hold flags set (10 R180). -/
def State.setHold (s : State) (hold allowAcks : Bool) : State × Response :=
  ({ s with maint := { s.maint with hold := hold, allowAcks := allowAcks } }, Response.ok [toByte (codeBool hold), toByte (codeBool allowAcks)])

/-- SET_CONTINUITY (11 R190). -/
def State.takeSetContinuity (s : State) (on : Bool) : State × Response :=
  ({ s with restart := { s.restart with continuity := on } }, Response.ok [toByte (codeBool on)])

/-! ### The rows -/

/-- IDENTIFY (10 R177). -/
def execIdentify (s : State) : Outcome := .next (s.command (fun s => (s, Response.ok s.identifyBytes)))

/-- SET_STATION (02 R37). -/
def execSetStation (rate : Nat) (s : State) : Outcome := .next (s.command (fun s => s.takeSetStation rate))

/-- SET_REFERENCE (07 R137). -/
def execSetReference (ref : Ref) (nominal : Nat) (enabled : Bool) (s : State) : Outcome :=
  .next (s.command (fun s => s.takeSetReference ref nominal enabled))

/-- SET_PRIORITY (07 R136). -/
def execSetPriority (first second third : Ref) (mode : SelMode) (delay : Nat) (s : State) : Outcome :=
  .next (s.command (fun s => s.takeSetPriority first second third mode delay))

/-- SET_QUALIFY (07 R131). -/
def execSetQualify (period : QualPeriod) (s : State) : Outcome := .next (s.command (fun s => s.takeSetQualify period))

/-- WRITE_PLAN (02 R33). -/
def execWritePlan (args : PlanArgs) (s : State) : Outcome := .next (s.command (fun s => s.takeWritePlan args))

/-- ERASE_PLAN (02 R34). -/
def execErasePlan (entry : Nat) (s : State) : Outcome := .next (s.command (fun s => s.takeErasePlan entry))

/-- READ_PLAN (02 R35). -/
def execReadPlan (entry : Nat) (s : State) : Outcome := .next (s.command (fun s => s.takeReadPlan entry))

/-- SET_LIMITS (03 R45). -/
def execSetLimits (acquire holdover : Nat) (s : State) : Outcome := .next (s.command (fun s => s.takeSetLimits acquire holdover))

/-- READ_REFERENCES (07 R139). -/
def execReadReferences (s : State) : Outcome := .next (s.command (fun s => (s, Response.ok s.station.bytes)))

/-- READ_LOOP (03 R69). -/
def execReadLoop (loop : Nat) (s : State) : Outcome := .next (s.command (fun s => s.readCell (inBank 6 loop) s.loopBytes))

/-- READ_PORT (04 R86). -/
def execReadPort (port : Nat) (s : State) : Outcome := .next (s.command (fun s => s.readCell (inBank 24 port) s.portBytes))

/-- READ_GRANT (10 R178). -/
def execReadGrant (port : Option Nat) (s : State) : Outcome := .next (s.command (fun s => s.takeReadGrant port))

/-- READ_NOTICES (08 R152). -/
def execReadNotices (slotNumber : Nat) (s : State) : Outcome :=
  .next (s.command (fun s => s.readCell (slotNumbered slotNumber) s.noticesBytes))

/-- READ_ATTENTION (08 R152). -/
def execReadAttention (s : State) : Outcome := .next (s.command (fun s => (s, Response.ok s.maint.attention.bytes)))

/-- ACK_ATTENTION (08 R151). -/
def execAckAttention (cause : Cause) (s : State) : Outcome := .next (s.command (fun s => s.takeAckAttention cause))

/-- READ_CAUSE (11 R188). -/
def execReadCause (s : State) : Outcome := .next (s.command State.takeReadCause)

/-- FORCE_RETIRE (10 R179). -/
def execForceRetire (handle : Option Handle) (s : State) : Outcome := .next (s.command (fun s => s.takeForceRetire handle))

/-- CLEAR_LOOP (03 R68). -/
def execClearLoop (loop : Nat) (s : State) : Outcome := .next (s.command (fun s => s.takeClearLoop loop))

/-- HOLD(on) (10 R180). -/
def execHoldOn (allowAcks : Bool) (s : State) : Outcome := .next (s.command (fun s => s.setHold true allowAcks))

/-- HOLD(off): both flags become no, whatever allow_acks carries (10 R180). -/
def execHoldOff (_allowAcks : Bool) (s : State) : Outcome := .next (s.command (fun s => s.setHold false false))

/-- SET_CONTINUITY (11 R190). -/
def execSetContinuity (on : Bool) (s : State) : Outcome := .next (s.command (fun s => s.takeSetContinuity on))

/-- A RESTART written to the port (11 R186, R187; 10 R174): in start-up it is absorbed with its OK response kept. -/
def State.restartCommand (s : State) : State :=
  match s.restart.startUp with
  | .running => s.restartRequest .command
  | .settling => (s.restartRequest .command).setBuffers none (some okEmpty)
  | .restarting => (s.restartRequest .command).setBuffers none (some okEmpty)
  | .supplyHeld => s

/-- RESTART (11 R186, R187). -/
def execRestart (s : State) : Outcome := .next s.restartCommand

/-- COMMAND_FORM_ERROR: a write transfer whose command fails a form check is answered BAD_VALUE by the port (10 R172; log 12, 22). -/
def execCommandFormError (bytes : List Byte) (s : State) : Outcome :=
  .next (if bytes ≠ [] ∧ parseCommand bytes = none then s.command (fun s => (s, Response.bare .badValue)) else s)

/-- A write transfer of at least one byte (10 R171, R172, R174). -/
def State.write (s : State) (bytes : List Byte) : State :=
  match s.restart.startUp, parseCommand bytes with
  | .running, some _ => s.setBuffers (some bytes) none
  | .running, none => s.setBuffers none (some (Response.bare .badValue))
  | .settling, some .restart => s.restartCommand
  | .settling, _ => s.setBuffers none none
  | .restarting, some .restart => s.restartCommand
  | .restarting, _ => s.setBuffers none none
  | .supplyHeld, _ => s

/-- WRITE_TRANSFER: a transfer of no bytes changes nothing; any other carries one command (10 R171). -/
def execWriteTransfer (bytes : List Byte) (s : State) : Outcome := .next (if bytes = [] then s else s.write bytes)

end Sys2Proof.Machine
end

