-- ==== Sys2Proof/Machine/PortRows.lean ====
section
/-! DEFINITION. The rows at the ports: stasis, completion, group rollovers, and the switch reports and lease expiries the grant engine takes (04 R75, R76, R80, R81; 05 R89 to R91; 06 R124). -/

namespace Sys2Proof.Machine

/-- One port changed, in the card's state. -/
def State.atPort (s : State) (p : PortIx) (f : PortRec → PortStep) : State := { s with switch := s.switch.atPort p f }

/-- Whether a port is SWITCHING and its stasis has not begun. -/
def PortRec.awaitsLow (r : PortRec) : Bool :=
  match r.switching with
  | some sw => !sw.stasis
  | none => false

/-- STASIS_BEGINS: the line of a SWITCHING port reaches a low phase of its current source (04 R75). -/
def execStasisBegins (p : PortIx) (s : State) : Outcome :=
  .next (if s.isRunning ∧ (rd s.switch.ports p).awaitsLow then
      s.atPort p (PortRec.beginStasis s.loops.loops s.station.station)
    else s)

/-- A port's switch completes at the low phase of a count of its own (04 R76). -/
def SwitchUnit.lowPhase (u : SwitchUnit) (p : PortIx) : SwitchUnit := (u.atPort p (PortRec.lowPhase (.begun u.starts))).begun

/-- PORT_SWITCH_COMPLETES: the low phase of the new source's first count, for an unaligned target (04 R76). -/
def execPortSwitchCompletes (p : PortIx) (s : State) : Outcome :=
  .next (if s.isRunning ∧ (rd s.switch.ports p).countsToward.isSome then { s with switch := s.switch.lowPhase p } else s)

/-- Whether a group divider rolls over: its loop produces output and has not gone IDLE since (04 R80). -/
def GroupDivider.counts (dv : GroupDivider) (loops : Vector LoopRec 6) : Bool := !dv.stopped && (rd loops dv.loop).producing

/-- The value that begins at a rollover (04 R80). -/
def GroupDivider.next (dv : GroupDivider) : Nat := dv.pendingValue.getD dv.value

/-- From where a group divider counts after a rollover (04 R80, R82): a value that goes on is counted on, and a value that takes over begins at the
end of a count of the value that was in force. -/
def GroupDivider.nextOrigin (dv : GroupDivider) (starts : Nat) : CountOrigin :=
  if dv.pendingValue.isSome then .takeover dv.origin dv.value starts else dv.origin

/-- A rollover of a group divider: the value beginning comes into force and the ports see it (04 R80, R81). -/
def SwitchUnit.rollover (u : SwitchUnit) (g : GroupIx) (dv : GroupDivider) : SwitchUnit :=
  { (u.atAllPorts (PortRec.rollover g dv.next (dv.nextOrigin u.starts))).begun with
    dividers := wr u.dividers g (some { dv with value := dv.next, pendingValue := none, count := 0, origin := dv.nextOrigin u.starts }) }

/-- GROUP_ROLLOVER (04 R80, R81). -/
def execGroupRollover (g : GroupIx) (s : State) : Outcome :=
  .next (match rd s.switch.dividers g with
    | some dv => if s.isRunning ∧ dv.counts s.loops.loops then { s with switch := s.switch.rollover g dv } else s
    | none => s)

/-- SWITCH_COMPLETION taken by the grant engine: the port's next report, when it is a completion (04 R79; 05 R89, R90). -/
def execSwitchCompletion (p : PortIx) (s : State) : Outcome :=
  .next (match s.portReports p with
    | .completion x :: rest => if s.isRunning then (s.setReports p rest).takeCompletion p x else s
    | .void _ :: _ => s
    | [] => s)

/-- SWITCH_VOID taken by the grant engine: the port's next report, when it is a void (04 R79; 05 R89, R91). -/
def execSwitchVoid (p : PortIx) (s : State) : Outcome :=
  .next (match s.portReports p with
    | .void _ :: rest => if s.isRunning then (s.setReports p rest).takeVoid p else s
    | .completion _ :: _ => s
    | [] => s)

/-- The lease on a port has run out: 0 ms remain and the hold is off (06 R122, R124). -/
def State.leaseOut (s : State) (p : PortIx) : Bool :=
  s.isRunning && !s.maint.hold && ((s.grantAt p).bind Grant.lease).map Lease.remaining == some 0

/-- LEASE_EXPIRY (06 R124). -/
def execLeaseExpiry (p : PortIx) (s : State) : Outcome := .next (if s.leaseOut p then s.retire p .leaseExpired else s)

end Sys2Proof.Machine
end

