-- ==== Sys2Proof/Machine/ReferenceRows.lean ====
section
/-! DEFINITION. The rows at the references and the station selector: monitor windows and the two timers (07 R128 to R130, R134). -/

namespace Sys2Proof.Machine

/-- REFERENCE_WINDOW (07 R128, R129): XO completes no window. -/
def execReferenceWindow (ref : Ref) (e : WindowError) (s : State) : Outcome :=
  .next (if s.isRunning ∧ ref ≠ .xo ∧ (s.station.ref ref).hasWindows then
      s.changeRef ref ((s.station.ref ref).window s.station.period e)
    else s)

/-- The qualification timer of a reference has run out: QUALIFYING, 0 ms remain and the hold is off (07 R130). -/
def State.qualificationOut (s : State) (ref : Ref) : Bool :=
  s.isRunning && !s.maint.hold && (s.station.ref ref).state == .qualifying && (s.station.ref ref).qualTimer == some 0

/-- QUALIFICATION_TIMER_EXPIRY (07 R130). -/
def execQualificationTimerExpiry (ref : Ref) (s : State) : Outcome :=
  .next (if s.qualificationOut ref then s.changeRef ref (s.station.ref ref).qualify else s)

/-- The candidate of an expired restore timer: 0 ms remain and the hold is off (07 R134). -/
def State.restoreOut (s : State) : Option Ref :=
  match s.station.restore with
  | some r => if s.isRunning ∧ s.maint.hold = false ∧ r.remaining = 0 then some r.candidate else none
  | none => none

/-- RESTORE_TIMER_EXPIRY: the candidate becomes the station reference (07 R134). -/
def execRestoreTimerExpiry (s : State) : Outcome :=
  .next (match s.restoreOut with
    | some c => ((s.changeStation (some c)).evaluateRestore).fillLatch
    | none => s)

end Sys2Proof.Machine
end

