-- ==== Sys2Proof/Machine/StartUpRows.lean ====
section
/-! DEFINITION. The rows at the restart logic: supply, start-up timers, panel input and chassis reset line (11 R184 to R189). -/

namespace Sys2Proof.Machine

/-- SUPPLY_APPLIED (11 R184; log 19). -/
def execSupplyApplied (jumpers : Jumpers) (s : State) : Outcome := .next (s.beginSettle jumpers { power := true })

/-- SUPPLY_TRIP (11 R185). -/
def execSupplyTrip (s : State) : Outcome := .next s.trip

/-- SUPPLY_RECOVERY: from SUPPLY_HELD as at power-up, with the cause record {SUPPLY} (11 R185). -/
def execSupplyRecovery (jumpers : Jumpers) (s : State) : Outcome :=
  .next (if s.restart.startUp = .supplyHeld then s.beginSettle jumpers { supply := true } else s)

/-- XO_SETTLE_EXPIRY (11 R184). -/
def execXoSettleExpiry (s : State) : Outcome :=
  .next (if s.restart.startUp = .settling ∧ s.restart.settleTimer = some 0 then s.endSettle else s)

/-- RESTART_TIMER_EXPIRY (11 R186). -/
def execRestartTimerExpiry (s : State) : Outcome :=
  .next (if s.restart.startUp = .restarting ∧ s.restart.restartTimer = some 0 then s.restartTimerOut else s)

/-- The held panel request set (11 R186, R187). -/
def State.holdPanel (s : State) (held : Bool) : State := { s with restart := { s.restart with panelHeld := held } }

/-- The held chassis request set (11 R186, R187). -/
def State.holdChassis (s : State) (held : Bool) : State := { s with restart := { s.restart with chassisHeld := held } }

/-- PANEL_RESTART: the panel input becomes asserted (11 R186, R187). -/
def execPanelRestart (s : State) : Outcome :=
  .next (if s.restart.startUp = .supplyHeld then s else (s.restartRequest .panel).holdPanel true)

/-- PANEL_RESTART_RELEASE: the panel input becomes released (11 R186, R187). -/
def execPanelRestartRelease (s : State) : Outcome :=
  .next (if s.restart.startUp = .supplyHeld then s else (s.holdPanel false).afterRelease)

/-- CHASSIS_RESET: judged by the continuity setting at the assertion (11 R187, R189). -/
def execChassisReset (s : State) : Outcome :=
  .next (match s.restart.startUp, s.restart.continuity with
    | .supplyHeld, _ => s
    | .running, true => s.continueThrough
    | .settling, true => s
    | .restarting, true => s
    | .running, false => (s.restartRequest .chassis).holdChassis true
    | .settling, false => (s.restartRequest .chassis).holdChassis true
    | .restarting, false => (s.restartRequest .chassis).holdChassis true)

/-- CHASSIS_RESET_RELEASE: releases a held restart request (11 R187, R189). -/
def execChassisResetRelease (s : State) : Outcome :=
  .next (if s.restart.startUp = .supplyHeld then s else (s.holdChassis false).afterRelease)

end Sys2Proof.Machine
end

