-- ==== Sys2Proof/Machine/Clock.lean ====
section
/-! DEFINITION. One millisecond of the card with no command waiting: what every counting timer loses, and the events that fall due (00 section 1.6; log 4, 25, 28). -/

namespace Sys2Proof.Machine

/-! ### The timers (03 R54, 06 R122, 07 R130, R134, 10 R182, 11 R183) -/

/-- A remaining time after one more millisecond. -/
def countDown (t : Option Nat) : Option Nat := t.map (fun n => n - 1)

/-- A loop timer after one millisecond: paused in WAITING (03 R55, R56). -/
def LoopRec.tick (l : LoopRec) : LoopRec :=
  if l.paused then l else { l with timer := l.timer.map (fun t => { t with remaining := t.remaining - 1 }) }

/-- A lease after one millisecond (06 R122). -/
def Grant.tick (g : Grant) : Grant := { g with lease := g.lease.map (fun l => { l with remaining := l.remaining - 1 }) }

/-- The references and the selector after one millisecond (07 R130, R134). -/
def StationBlock.tick (b : StationBlock) : StationBlock :=
  { b with refs := mapCells (fun _ r => { r with qualTimer := countDown r.qualTimer }) b.refs,
           restore := b.restore.map (fun r => { r with remaining := r.remaining - 1 }) }

/-- The timers that inspection hold freezes, after one millisecond outside it (10 R182). -/
def State.tickTimers (s : State) : State :=
  { s with
    loops := { s.loops with loops := mapCells (fun _ l => l.tick) s.loops.loops },
    engine := { s.engine with grants := mapCells (fun _ g => Option.map Grant.tick g) s.engine.grants },
    station := s.station.tick }

/-- The settle and restart timers after one millisecond, whether or not the hold is on (11 R183). -/
def RestartLogic.tick (r : RestartLogic) : RestartLogic :=
  { r with settleTimer := countDown r.settleTimer, restartTimer := countDown r.restartTimer }

/-- The bytes a link sends in one millisecond: 10 µs each (09 R154; log 25). -/
def bytesPerMs : Nat := 100

/-- A transmission after one millisecond. -/
def Transmission.tick (t : Transmission) : Transmission := { t with sent := min t.frame.length (t.sent + bytesPerMs) }

/-- What a link sends in one millisecond: a BUSY answer in transmission goes before the current answer (09 R157, R158). -/
def LinkRec.send (l : LinkRec) : LinkRec :=
  match l.busyTx with
  | some t => { l with busyTx := some t.tick }
  | none => { l with current := l.current.map Transmission.tick }

/-- A link after one millisecond in which no byte came: that is a gap of more than 50 µs, so the frame in reception, if any, is discarded
(09 R156; 10 R182: under hold too). -/
def LinkRec.tick (l : LinkRec) : LinkRec := { l.send with receiver := .hunting }

/-- The card after one millisecond, before the events that fall due are taken. -/
def State.tick (s : State) : State :=
  let t := if s.isRunning ∧ s.maint.hold = false then s.tickTimers else s
  { t with restart := t.restart.tick, links := mapCells (fun _ l => l.tick) t.links }

/-! ### The events that fall due -/

/-- A command in a list when a condition holds. -/
def dueIf (b : Bool) (c : Instr) : List Instr := if b then [c] else []

/-- The start-up timer that has run out (11 R184, R186). -/
def State.dueStartUp (s : State) : List Instr :=
  match s.restart.startUp with
  | .settling => dueIf (s.restart.settleTimer == some 0) .xoSettleExpiry
  | .restarting => dueIf (s.restart.restartTimer == some 0) .restartTimerExpiry
  | .running => []
  | .supplyHeld => []

/-- The lock event's row. -/
def lockRow (k : LoopIx) (e : LockEvent) : Instr :=
  match e.kind with
  | .gained => .lockGained k
  | .lost => .lockLost k
  | .holdoverEntered => .holdoverEntered k
  | .holdoverEnded => .holdoverEnded k

/-- The lock events of a loop not yet taken, and the expiry of its timer. -/
def State.dueLoop (s : State) (k : LoopIx) : List Instr :=
  (s.lockEvents k).map (lockRow k) ++
  dueIf (s.loopTimerOut k .settle && (s.loop k).state == .acquiring) (.settleTimerExpiry k) ++
  dueIf (s.loopTimerOut k .acquire && ((s.loop k).state == .acquiring || (s.loop k).state == .tracking)) (.acquireTimeout k) ++
  dueIf (s.loopTimerOut k .holdover && (s.loop k).state == .holdover) (.holdoverExpired k)

/-- The switch report's row. -/
def reportRow (p : PortIx) (r : Report) : Instr :=
  match r with
  | .completion _ => .switchCompletion p
  | .void _ => .switchVoid p

/-- The switch reports of a port not yet taken, and the expiry of its grant's lease. -/
def State.duePort (s : State) (p : PortIx) : List Instr := (s.portReports p).map (reportRow p) ++ dueIf (s.leaseOut p) (.leaseExpiry p)

/-- The qualification and restore timers that have run out. -/
def State.dueStation (s : State) : List Instr :=
  dueIf (s.qualificationOut .refa) (.qualificationTimerExpiry .refa) ++ dueIf (s.qualificationOut .refb) (.qualificationTimerExpiry .refb) ++
  dueIf s.restoreOut.isSome .restoreTimerExpiry

/-- Whether every byte of a transmission has been sent. -/
def Transmission.done (t : Transmission) : Bool := t.frame.length ≤ t.sent

/-- The answer of a link that has been sent whole. -/
def State.dueLink (s : State) (slot : SlotIx) : List Instr :=
  match (s.link slot).busyTx, (s.link slot).current with
  | some t, _ => dueIf t.done (.busyAnswerSent slot)
  | none, some t => dueIf t.done (.answerSent slot)
  | none, none => []

/-- The waiting command, taken by its owner (10 R171). -/
def State.dueCommand (s : State) : List Instr := (s.maint.waiting.bind parseCommand).toList

/-- The events that fall due, in the model's order (log 4, 28). -/
def State.due (s : State) : List Instr :=
  if s.isRunning then
    allLoops.flatMap s.dueLoop ++ allPorts.flatMap s.duePort ++ s.dueStation ++ allSlots.flatMap s.dueLink ++ s.dueCommand
  else s.dueStartUp

/-- A step with no command waiting: one millisecond passes, and what falls due waits (log 4). -/
def State.idle (s : State) : State := { s.tick with pending := s.tick.due }

end Sys2Proof.Machine
end

