-- ==== Sys2Proof/Machine/Dispatch.lean ====
section
/-! DEFINITION. exec: one arm per command, each one call of its meaning. -/

namespace Sys2Proof.Machine

def exec (i : Instr) (s : State) : Host.Outcome State Fault Refusal :=
  match i with
  | .hello slot tag keep => Sys2Proof.Machine.execHello slot tag keep s
  | .request slot tag args => Sys2Proof.Machine.execRequest slot tag args s
  | .retune slot tag args => Sys2Proof.Machine.execRetune slot tag args s
  | .release slot tag handle => Sys2Proof.Machine.execRelease slot tag handle s
  | .renew slot tag handle period => Sys2Proof.Machine.execRenew slot tag handle period s
  | .query slot tag line => Sys2Proof.Machine.execQuery slot tag line s
  | .notices slot tag => Sys2Proof.Machine.execNotices slot tag s
  | .ack slot tag place kind seq => Sys2Proof.Machine.execAck slot tag place kind seq s
  | .linkError slot frame => Sys2Proof.Machine.execLinkError slot frame s
  | .frameRefusedBusy slot frame => Sys2Proof.Machine.execFrameRefusedBusy slot frame s
  | .frameGapTimeout slot => Sys2Proof.Machine.execFrameGapTimeout slot s
  | .framingErrorDiscard slot => Sys2Proof.Machine.execFramingErrorDiscard slot s
  | .answerSent slot => Sys2Proof.Machine.execAnswerSent slot s
  | .busyAnswerSent slot => Sys2Proof.Machine.execBusyAnswerSent slot s
  | .presentAsserted slot => Sys2Proof.Machine.execPresentAsserted slot s
  | .slotLoss slot => Sys2Proof.Machine.execSlotLoss slot s
  | .identify => Sys2Proof.Machine.execIdentify s
  | .setStation rate => Sys2Proof.Machine.execSetStation rate s
  | .setReference ref nominal enabled => Sys2Proof.Machine.execSetReference ref nominal enabled s
  | .setPriority first second third mode delay => Sys2Proof.Machine.execSetPriority first second third mode delay s
  | .setQualify period => Sys2Proof.Machine.execSetQualify period s
  | .writePlan args => Sys2Proof.Machine.execWritePlan args s
  | .erasePlan entry => Sys2Proof.Machine.execErasePlan entry s
  | .readPlan entry => Sys2Proof.Machine.execReadPlan entry s
  | .setLimits acquire holdover => Sys2Proof.Machine.execSetLimits acquire holdover s
  | .readReferences => Sys2Proof.Machine.execReadReferences s
  | .readLoop loop => Sys2Proof.Machine.execReadLoop loop s
  | .readPort port => Sys2Proof.Machine.execReadPort port s
  | .readGrant port => Sys2Proof.Machine.execReadGrant port s
  | .readNotices slotNumber => Sys2Proof.Machine.execReadNotices slotNumber s
  | .readAttention => Sys2Proof.Machine.execReadAttention s
  | .ackAttention cause => Sys2Proof.Machine.execAckAttention cause s
  | .readCause => Sys2Proof.Machine.execReadCause s
  | .forceRetire handle => Sys2Proof.Machine.execForceRetire handle s
  | .clearLoop loop => Sys2Proof.Machine.execClearLoop loop s
  | .holdOn allowAcks => Sys2Proof.Machine.execHoldOn allowAcks s
  | .holdOff allowAcks => Sys2Proof.Machine.execHoldOff allowAcks s
  | .setContinuity on => Sys2Proof.Machine.execSetContinuity on s
  | .restart => Sys2Proof.Machine.execRestart s
  | .commandFormError bytes => Sys2Proof.Machine.execCommandFormError bytes s
  | .loopWindow k e => Sys2Proof.Machine.execLoopWindow k e s
  | .settleTimerExpiry k => Sys2Proof.Machine.execSettleTimerExpiry k s
  | .acquireTimeout k => Sys2Proof.Machine.execAcquireTimeout k s
  | .holdoverExpired k => Sys2Proof.Machine.execHoldoverExpired k s
  | .lockGained k => Sys2Proof.Machine.execLockGained k s
  | .lockLost k => Sys2Proof.Machine.execLockLost k s
  | .holdoverEntered k => Sys2Proof.Machine.execHoldoverEntered k s
  | .holdoverEnded k => Sys2Proof.Machine.execHoldoverEnded k s
  | .stasisBegins p => Sys2Proof.Machine.execStasisBegins p s
  | .portSwitchCompletes p => Sys2Proof.Machine.execPortSwitchCompletes p s
  | .groupRollover g => Sys2Proof.Machine.execGroupRollover g s
  | .switchCompletion p => Sys2Proof.Machine.execSwitchCompletion p s
  | .switchVoid p => Sys2Proof.Machine.execSwitchVoid p s
  | .leaseExpiry p => Sys2Proof.Machine.execLeaseExpiry p s
  | .referenceWindow ref e => Sys2Proof.Machine.execReferenceWindow ref e s
  | .qualificationTimerExpiry ref => Sys2Proof.Machine.execQualificationTimerExpiry ref s
  | .restoreTimerExpiry => Sys2Proof.Machine.execRestoreTimerExpiry s
  | .supplyApplied jumpers => Sys2Proof.Machine.execSupplyApplied jumpers s
  | .supplyTrip => Sys2Proof.Machine.execSupplyTrip s
  | .supplyRecovery jumpers => Sys2Proof.Machine.execSupplyRecovery jumpers s
  | .xoSettleExpiry => Sys2Proof.Machine.execXoSettleExpiry s
  | .restartTimerExpiry => Sys2Proof.Machine.execRestartTimerExpiry s
  | .panelRestart => Sys2Proof.Machine.execPanelRestart s
  | .panelRestartRelease => Sys2Proof.Machine.execPanelRestartRelease s
  | .chassisReset => Sys2Proof.Machine.execChassisReset s
  | .chassisResetRelease => Sys2Proof.Machine.execChassisResetRelease s
  | .requestByteReceived slot byte framingError => Sys2Proof.Machine.execRequestByteReceived slot byte framingError s
  | .writeTransfer bytes => Sys2Proof.Machine.execWriteTransfer bytes s

end Sys2Proof.Machine
end

