-- ==== Sys2Proof/Safety.lean ====
section
/-! DEFINITION. What the statements are written with: the invariants of the card, the frames of its commands, and the rows named by their families. -/

namespace Sys2Proof.Machine

/-! ### Invariants -/

/-- The attention latch (08 R149): a latched cause is pending, a cause is latched whenever one is pending, and counts stay within 0..255. -/
structure Attention.Sound (a : Attention) : Prop where
  latchedPending : ∀ c, a.latched = some c → a.pendingCause c = true
  emptyLatch : a.latched = none → ∀ c, a.pendingCause c = false
  bounded : ∀ i, rd a.counts i ≤ 255

/-- A reference record (Table 7-1, Table 7-2): its optional fields are present in the states named for them. -/
structure RefRec.Sound (ref : Ref) (r : RefRec) : Prop where
  preDivider : r.preDivider.isSome = (r.state != .disabled && r.state != .misfit)
  qualTimer : r.qualTimer.isSome = (r.state == .qualifying)
  xo : ref = .xo → r.state = .disabled ∨ r.state = .misfit ∨ r.state = .qualified

/-- The selector and the monitors (07 R126, R132 to R134). -/
structure StationBlock.Sound (b : StationBlock) : Prop where
  chosen : ∀ r, b.station = some r → b.qualified r = true
  none : b.station = none → ∀ r, b.qualified r = false
  refs : ∀ r, (b.ref r).Sound r
  priority : ∀ r, r ∈ b.priority
  candidate : b.restore.map Restore.candidate = b.candidate

/-- A loop record beside the station reference (Table 3-1, 03 R43, R44). -/
structure LoopRec.Sound (station : Option Ref) (l : LoopRec) : Prop where
  entry : l.run.isSome = l.running
  quarantine : l.failed.isSome = true → l.state = .idle
  atRest : l.state = .idle → l.lastError = none ∧ l.timer = none
  waiting : l.state = .waiting → station = none
  referenced : l.state = .acquiring ∨ l.state = .tracking ∨ l.state = .locked → station.isSome = true
  lockTimer : l.state = .waiting ∨ l.state = .acquiring ∨ l.state = .tracking →
    l.timer.map LoopTimer.kind = some (if l.run.map Run.mode = some .auto then .acquire else .settle)
  trackingAuto : l.state = .tracking → l.run.map Run.mode = some .auto
  locked : l.state = .locked → l.timer = none
  holdover : l.state = .holdover → l.timer.map LoopTimer.kind = if station.isSome then none else some .holdover
  countAtStart : l.state = .idle ∨ l.state = .waiting ∨ l.state = .acquiring → l.good = 0
  countTracking : l.state = .tracking → l.good ≤ 3
  countLocked : l.state = .locked ∨ l.state = .holdover → l.good = if l.run.map Run.mode = some .auto then 4 else 0

/-- A port beside the loops and the station reference (04 R75 to R77): a switch never stands where the rules end it or begin its stasis at once. -/
structure PortRec.Sound (loops : Vector LoopRec 6) (station : Option Ref) (r : PortRec) : Prop where
  beforeStasis : ∀ sw, r.switching = some sw → sw.stasis = false → r.current ≠ .none ∧ silentSource loops station r.current = false
  inStasis : ∀ sw, r.switching = some sw → sw.stasis = true →
    sw.lost = false ∧ sw.target ≠ .none ∧ (sw.target.group = none → silentSource loops station sw.target = false)
  lostTarget : ∀ sw, r.switching = some sw → sw.lost = true → ∃ k d g, sw.target = .loop k d g

/-- The blocks at rest while the card is in start-up (11 R183). -/
structure State.Quiet (s : State) : Prop where
  ports : s.switch = s.switch.reset
  engine : s.engine = GrantEngine.powerUp
  loops : s.loops.loops = fill 6 LoopRec.idle ∧ s.loops.events = fill 6 []
  notices : s.notices = NoticeUnit.powerUp
  attention : s.maint.attention = Attention.powerUp
  flags : s.maint.hold = false ∧ s.maint.allowAcks = false
  waiting : s.maint.waiting = none
  links : s.links = fill 12 LinkRec.mute

/-- Start-up (Table 11-1, 11 R183, R186, R187; 09 R154). -/
structure State.StartUpSound (s : State) : Prop where
  settleTimer : s.restart.settleTimer.isSome = (s.restart.startUp == .settling)
  restartTimer : s.restart.restartTimer.isSome = true → s.restart.startUp = .restarting
  heldStart : s.restart.startUp = .restarting → s.restart.restartTimer = none → s.restart.restartHeld = true
  quiet : s.restart.startUp ≠ .running → s.Quiet
  released : s.restart.startUp = .running → s.restart.restartHeld = false
  listening : s.restart.startUp = .running → ∀ slot, (s.link slot).listening = rd s.present slot
  mute : ∀ slot, (s.link slot).listening = false → s.link slot = LinkRec.mute

/-- The two buffers of the maintenance port (10 R171, R173): no response stands while a command waits, and a waiting command has a good form. -/
structure State.BuffersSound (s : State) : Prop where
  exclusive : s.maint.waiting.isSome = true → s.maint.response = none
  goodForm : ∀ bytes, s.maint.waiting = some bytes → (parseCommand bytes).isSome = true

/-- Every loop record is sound (Table 3-1). -/
def State.LoopsSound (s : State) : Prop := ∀ k, (s.loop k).Sound s.station.station

/-- Every port record is sound (04 R75 to R77). -/
def State.PortsSound (s : State) : Prop := ∀ p, (rd s.switch.ports p).Sound s.loops.loops s.station.station

/-! ### Frames -/

/-- What every action of the grant engine leaves unchanged: restart logic, PRESENT lines, references and selector, plan, limits, the
maintenance port but for the attention latch, links and queue. Such an action fills no latch, and no count within 0..255 falls. -/
structure EngineFrame (s t : State) : Prop where
  restart : t.restart = s.restart
  present : t.present = s.present
  station : t.station = s.station
  plan : t.plan = s.plan
  acquireLimit : t.loops.acquireLimit = s.loops.acquireLimit
  holdoverLimit : t.loops.holdoverLimit = s.loops.holdoverLimit
  maint : t.maint = { s.maint with attention := t.maint.attention }
  latched : t.maint.attention.latched = s.maint.attention.latched
  counts : ∀ i, min 255 (rd s.maint.attention.counts i) ≤ rd t.maint.attention.counts i
  bounded : (∀ i, rd s.maint.attention.counts i ≤ 255) → ∀ i, rd t.maint.attention.counts i ≤ 255
  links : t.links = s.links
  pending : t.pending = s.pending

/-! ### Rows -/

/-- The row that carries a slot request. -/
def slotRow (slot : SlotIx) (tag : Tag) (r : SlotReq) : Instr :=
  match r with
  | .hello keep => .hello slot tag keep
  | .request a => .request slot tag a
  | .retune a => .retune slot tag a
  | .release h => .release slot tag h
  | .renew h period => .renew slot tag h period
  | .query line => .query slot tag line
  | .notices => .notices slot tag
  | .ack place kind seq => .ack slot tag place kind seq

/-- A link that is listening, hunting and IDLE. -/
def State.linkReady (s : State) (slot : SlotIx) : Prop :=
  (s.link slot).listening = true ∧ (s.link slot).receiver = .hunting ∧ (s.link slot).current = none

/-- A link that is listening, hunting and WORKING. -/
def State.linkWorking (s : State) (slot : SlotIx) : Prop :=
  (s.link slot).listening = true ∧ (s.link slot).receiver = .hunting ∧ (s.link slot).current.isSome = true

/-- The bytes given received one after another at a link, each a REQUEST_BYTE_RECEIVED without a framing error. -/
def receiveBytes (slot : SlotIx) (bytes : List Byte) (s : State) : Outcome :=
  match bytes with
  | [] => .next s
  | b :: rest =>
    match exec (.requestByteReceived slot b false) s with
    | .next t => receiveBytes slot rest t
    | .fault r => .fault r
    | .refused r => .refused r

end Sys2Proof.Machine
end

