-- ==== Sys2Proof/Certificates/Slice0/Obligations.lean ====
section
/-! DEFINITION. The statements of this row, one Prop each. A rule R<n> is a rule of spec/; log <n> is notes/assumptions/<n>.md. -/

open Sys2Proof Sys2Proof.Machine

/-! ### The queue and time -/

/-- A step runs the command at the front of the queue on the rest of the queue. -/
def Obligations.StepRunsFrontCommand : Prop :=
  ∀ (c : Instr) (rest : List Instr) (s : State), step { s with pending := c :: rest } = exec c { s with pending := rest }

/-- Every command completes in every state and leaves the queue as it was. -/
def Obligations.EveryCommandCompletes : Prop :=
  ∀ (c : Instr) (s : State), ∃ t, exec c s = .next t ∧ t.pending = s.pending

/-- With no command waiting one millisecond passes (the model's choice, log 4): each timer that counts loses one, those a hold freezes and those
paused in WAITING do not (R54, R58, R122, R130, R134, R182), the start-up timers count whatever the hold (R183). On each link the answer on the
wire goes on by up to 100 bytes (log 25), a BUSY answer before the current one (R158), and a frame in reception is discarded, since no byte
came for more than 50 µs (R156). Nothing else moves. -/
def Obligations.IdleStepCountsTimers : Prop :=
  ∀ s : State, s.pending = [] → ∃ t, step s = .next t ∧
    (s.restart.startUp = .running → s.maint.hold = false →
      (∀ k, t.loop k =
        if (s.loop k).state = .waiting then s.loop k
        else { s.loop k with timer := (s.loop k).timer.map (fun x => { x with remaining := x.remaining - 1 }) }) ∧
      (∀ p, t.grantAt p = (s.grantAt p).map (fun g => { g with lease := g.lease.map (fun l => { l with remaining := l.remaining - 1 }) })) ∧
      (∀ r, t.station.ref r = { s.station.ref r with qualTimer := (s.station.ref r).qualTimer.map (· - 1) }) ∧
      t.station.restore = s.station.restore.map (fun r => { r with remaining := r.remaining - 1 })) ∧
    (s.restart.startUp ≠ .running ∨ s.maint.hold = true → t.loops = s.loops ∧ t.engine = s.engine ∧ t.station = s.station) ∧
    t.restart = { s.restart with settleTimer := s.restart.settleTimer.map (· - 1), restartTimer := s.restart.restartTimer.map (· - 1) } ∧
    t.station = { s.station with refs := t.station.refs, restore := t.station.restore } ∧
    t.loops = { s.loops with loops := t.loops.loops } ∧ t.engine = { s.engine with grants := t.engine.grants } ∧
    t.present = s.present ∧ t.plan = s.plan ∧ t.switch = s.switch ∧ t.notices = s.notices ∧ t.maint = s.maint ∧
    (∀ slot, let l := s.link slot
      let sent : Transmission → Transmission := fun x => { x with sent := min x.frame.length (x.sent + 100) }
      t.link slot = { l with
        receiver := .hunting, busyTx := l.busyTx.map sent, current := if l.busyTx = none then l.current.map sent else l.current })

/-- The expiries that fall due after an idle step are those of the timers that stand at 0 in a RUNNING card outside inspection hold (R54, R124,
R130, R134, R182), XO having no qualification timer; in start-up they are those of the settle and restart timers (R184, R186). The queueing
itself is the model's choice (log 4). -/
def Obligations.ExpiriesFallDueAtZero : Prop :=
  ∀ s : State, s.pending = [] → ∃ t, step s = .next t ∧
    (∀ k, Instr.acquireTimeout k ∈ t.pending ↔ t.restart.startUp = .running ∧ t.maint.hold = false ∧
      (t.loop k).timer = some { kind := .acquire, remaining := 0 } ∧ ((t.loop k).state = .acquiring ∨ (t.loop k).state = .tracking)) ∧
    (∀ k, Instr.settleTimerExpiry k ∈ t.pending ↔ t.restart.startUp = .running ∧ t.maint.hold = false ∧
      (t.loop k).timer = some { kind := .settle, remaining := 0 } ∧ (t.loop k).state = .acquiring) ∧
    (∀ k, Instr.holdoverExpired k ∈ t.pending ↔ t.restart.startUp = .running ∧ t.maint.hold = false ∧
      (t.loop k).timer = some { kind := .holdover, remaining := 0 } ∧ (t.loop k).state = .holdover) ∧
    (∀ p, Instr.leaseExpiry p ∈ t.pending ↔ t.restart.startUp = .running ∧ t.maint.hold = false ∧
      ∃ g l, t.grantAt p = some g ∧ g.lease = some l ∧ l.remaining = 0) ∧
    (∀ r, Instr.qualificationTimerExpiry r ∈ t.pending ↔ r ≠ .xo ∧ t.restart.startUp = .running ∧ t.maint.hold = false ∧
      (t.station.ref r).state = .qualifying ∧ (t.station.ref r).qualTimer = some 0) ∧
    (Instr.restoreTimerExpiry ∈ t.pending ↔ t.restart.startUp = .running ∧ t.maint.hold = false ∧
      ∃ r, t.station.restore = some r ∧ r.remaining = 0) ∧
    (Instr.xoSettleExpiry ∈ t.pending ↔ t.restart.startUp = .settling ∧ t.restart.settleTimer = some 0) ∧
    (Instr.restartTimerExpiry ∈ t.pending ↔ t.restart.startUp = .restarting ∧ t.restart.restartTimer = some 0)

/-! ### Encodings -/

/-- What a frame carries is what the link reads from it: for every slot request whose numbers fit their fields, the payload read back under its
kind is the request. -/
def Obligations.SlotRequestEncodingAgrees : Prop :=
  ∀ r : SlotReq, r.wellFormed = true → parseRequest r.kind r.payload = some r

/-- What a write transfer carries is what the maintenance port reads from it: for every maintenance command whose numbers fit their fields, the
bytes that carry it are read back as that command. -/
def Obligations.MaintenanceCommandEncodingAgrees : Prop :=
  ∀ (c : Instr) (bytes : List Byte), c.wellFormed = true → commandBytes c = some bytes → parseCommand bytes = some c

/-- A change of any one of the bytes that the check byte covers changes the check byte, and the check byte over the covered bytes and the check
byte itself is 0 (R155: CRC-8, preset to 0xFF, not inverted). -/
def Obligations.CheckByteDetectsOneChangedByte : Prop :=
  (∀ (before after : List Byte) (a b : Byte), a ≠ b → crc8 (before ++ a :: after) ≠ crc8 (before ++ b :: after)) ∧
  (∀ bytes : List Byte, crc8 (bytes ++ [crc8 bytes]) = 0#8)

/-- The bytes of a request frame received one after another do what the row of that request does: from a link that is listening and hunting, the
start byte, head, length, payload and check byte, each a REQUEST_BYTE_RECEIVED without a framing error, end in the state the request's own row
gives. -/
def Obligations.FrameReceivedByteByByte : Prop :=
  ∀ (s : State) (slot : SlotIx) (tag : Tag) (r : SlotReq), r.wellFormed = true →
    (s.link slot).listening = true → (s.link slot).receiver = .hunting →
    receiveBytes slot (startByte :: (requestFrame tag r).tail) s = exec (slotRow slot tag r) s

/-- The receiver (R156): a byte at a mute link is ignored; a hunting receiver begins a frame at 0xA5 without a framing error and discards every
other byte; a receiving one discards its frame at a framing error or at a gap, and otherwise adds the byte; nothing else of the card moves. When the byte is
the check byte that the length calls for, the frame has arrived and the receiver hunts again: what a frame that arrives does, good, malformed or
refused, is stated last (R157, R158). -/
def Obligations.ReceiverBytes : Prop :=
  ∀ (s : State) (slot : SlotIx) (byte : Byte),
    ((s.link slot).listening = false → ∀ fe, exec (.requestByteReceived slot byte fe) s = .next s) ∧
    ((s.link slot).listening = true → (s.link slot).receiver = .hunting →
      exec (.requestByteReceived slot byte true) s = .next s ∧
      (byte ≠ 0xA5#8 → exec (.requestByteReceived slot byte false) s = .next s) ∧
      exec (.requestByteReceived slot 0xA5#8 false) s =
        .next { s with links := wr s.links slot { s.link slot with receiver := .receiving [] } }) ∧
    (∀ got, (s.link slot).listening = true → (s.link slot).receiver = .receiving got →
      exec (.requestByteReceived slot byte true) s = .next { s with links := wr s.links slot { s.link slot with receiver := .hunting } } ∧
      (frameOf (got ++ [byte]) = none → exec (.requestByteReceived slot byte false) s =
        .next { s with links := wr s.links slot { s.link slot with receiver := .receiving (got ++ [byte]) } }) ∧
      (∀ f, frameOf (got ++ [byte]) = some f → exec (.requestByteReceived slot byte false) s =
        .next (State.frameArrives { s with links := wr s.links slot { s.link slot with receiver := .hunting } } slot f))) ∧
    (∀ (bytes : List Byte) (f : RawFrame), frameOf bytes = some f ↔
      ∃ len : Byte, f.payload.length = len.toNat ∧ bytes = f.head :: len :: (f.payload ++ [f.check])) ∧
    (∀ f : RawFrame,
      ((s.link slot).current.isSome = true → f.checkOk = true →
        s.frameArrives slot f = { s with links := wr s.links slot { s.link slot with busyTag := some (headTag f.head) } }) ∧
      ((s.link slot).current.isSome = true → f.checkOk = false → s.frameArrives slot f = s) ∧
      ((s.link slot).current = none → f.checkOk = false →
        s.frameArrives slot f = s.answer slot (headTag f.head) { status := .linkError, payload := [] }) ∧
      ((s.link slot).current = none → f.checkOk = true → parseRequest (headKind f.head) f.payload = none →
        s.frameArrives slot f = s.answer slot (headTag f.head) { status := .badRequest, payload := [] }) ∧
      (∀ r, (s.link slot).current = none → f.checkOk = true → parseRequest (headKind f.head) f.payload = some r →
        s.frameArrives slot f = (s.serve slot r).1.answer slot (headTag f.head) (s.serve slot r).2)) ∧
    exec (.frameGapTimeout slot) s = .next { s with links := wr s.links slot { s.link slot with receiver := .hunting } } ∧
    exec (.framingErrorDiscard slot) s = .next { s with links := wr s.links slot { s.link slot with receiver := .hunting } }

/-! ### The slot links -/

/-- A slot request at its link (R156 to R158): at a ready link its owner takes it in the same action and its answer, carrying the frame's tag,
becomes the current answer; at a WORKING link nothing changes but the held BUSY tag; where the frame cannot arrive nothing changes; and a receiver
that has begun the frame ends as one that hunts. What every answer does to the card is stated last. -/
def Obligations.SlotRequestAtLink : Prop :=
  (∀ (s : State) (slot : SlotIx) (tag : Tag) (r : SlotReq),
    (s.linkReady slot → exec (slotRow slot tag r) s = .next ((s.serve slot r).1.answer slot tag (s.serve slot r).2)) ∧
    (s.linkWorking slot →
      exec (slotRow slot tag r) s = .next { s with links := wr s.links slot { s.link slot with busyTag := some tag } }) ∧
    (s.canReceive slot (requestFrame tag r) = false → exec (slotRow slot tag r) s = .next s) ∧
    (s.canReceive slot (requestFrame tag r) = true → exec (slotRow slot tag r) s = exec (slotRow slot tag r) (s.hunt slot))) ∧
  (∀ (s : State) (slot : SlotIx) (tag : Tag) (a : Answer),
    s.answer slot tag a =
      { s with links := wr s.links slot { s.link slot with current := some { frame := answerBytes tag a.status.code a.payload, sent := 0 } } })

/-- A malformed frame at a ready link (R157 steps 1 and 2): LINK_ERROR when its check byte does not match, BAD_REQUEST when its kind, length or an
enumerated field is undefined, with an empty payload and the tag of its head byte; no block but the link sees it. At a WORKING link, LINK_ERROR's row
changes nothing (log 12). A payload reads as a request only under a kind 1..8 at a length that Table 9-4 allows, and then exactly when each of its
enumerated fields holds a code of Table 9-2: a handle's port byte is 0..23 or 255 and its generation 0..15. -/
def Obligations.MalformedFrameAnswered : Prop :=
  (∀ (s : State) (slot : SlotIx) (f : RawFrame),
    (s.linkReady slot → f.checkOk = false →
      exec (.linkError slot f) s = .next (s.answer slot (headTag f.head) { status := .linkError, payload := [] })) ∧
    (s.linkReady slot → f.checkOk = true → parseRequest (headKind f.head) f.payload = none →
      exec (.linkError slot f) s = .next (s.answer slot (headTag f.head) { status := .badRequest, payload := [] })) ∧
    (s.linkWorking slot → exec (.linkError slot f) s = .next s)) ∧
  (∀ (kind : Nat) (payload : List Byte),
    (kind, payload.length) ∉ [(1, 1), (2, 14), (3, 9), (4, 2), (5, 4), (6, 0), (6, 1), (7, 0), (8, 3)] → parseRequest kind payload = none) ∧
  (let reads : Nat → List Byte → Prop := fun kind payload => (parseRequest kind payload).isSome = true
   let handle : Byte → Byte → Prop := fun port gen => (port.toNat < 24 ∨ port.toNat = 255) ∧ gen.toNat < 16
   (∀ keep, reads 1 [keep] ↔ keep.toNat < 2) ∧
   (∀ line f3 f2 f1 f0 t1 t0 policy d1 d0 l1 l0 port gen,
     reads 2 [line, f3, f2, f1, f0, t1, t0, policy, d1, d0, l1, l0, port, gen] ↔ line.toNat < 2 ∧ policy.toNat < 3 ∧ handle port gen) ∧
   (∀ port gen f3 f2 f1 f0 t1 t0 gap, reads 3 [port, gen, f3, f2, f1, f0, t1, t0, gap] ↔ handle port gen ∧ gap.toNat < 2) ∧
   (∀ port gen, reads 4 [port, gen] ↔ handle port gen) ∧
   (∀ port gen p1 p0, reads 5 [port, gen, p1, p0] ↔ handle port gen) ∧
   reads 6 [] ∧ (∀ line, reads 6 [line] ↔ line.toNat < 2) ∧
   reads 7 [] ∧
   (∀ place kind seq, reads 8 [place, kind, seq] ↔ place.toNat < 3 ∧ kind.toNat < 11))

/-- A WORKING link (R157, R158): a refused frame's tag is held when its check byte matches, replacing any tag held, and the frame is discarded
when it does not; at the end of the answer the link returns to IDLE, and a held BUSY tag leaves the hold and is sent as a BUSY answer with an
empty payload; the end of that BUSY answer leaves the wire to the next answer. Where no current answer is on the wire, ANSWER_SENT changes
nothing (log 5). -/
def Obligations.WorkingLinkRefusesAndIsFreed : Prop :=
  ∀ (s : State) (slot : SlotIx),
    (∀ f : RawFrame, s.linkWorking slot →
      (f.checkOk = true → exec (.frameRefusedBusy slot f) s =
        .next { s with links := wr s.links slot { s.link slot with busyTag := some (headTag f.head) } }) ∧
      (f.checkOk = false → exec (.frameRefusedBusy slot f) s = .next s)) ∧
    ((s.link slot).current.isSome = true → (s.link slot).busyTx = none → (s.link slot).busyTag = none →
      exec (.answerSent slot) s = .next { s with links := wr s.links slot { s.link slot with current := none } }) ∧
    (∀ tag, (s.link slot).current.isSome = true → (s.link slot).busyTx = none → (s.link slot).busyTag = some tag →
      exec (.answerSent slot) s = .next { s with links := wr s.links slot { s.link slot with
        current := none, busyTag := none, busyTx := some { frame := answerBytes tag 1 [], sent := 0 } } }) ∧
    ((s.link slot).current = none ∨ (s.link slot).busyTx ≠ none → exec (.answerSent slot) s = .next s) ∧
    exec (.busyAnswerSent slot) s = .next { s with links := wr s.links slot { s.link slot with busyTx := none } }

/-- The PRESENT line (R167): its assertion outside start-up begins listening with the receiver hunting and changes no grant and no notice; slot
loss resets and mutes the link, retires both ports with reason SLOT_LOSS, line A before line B and their requests in one moment (log 6), and
leaves none of the slot's kinds pending. In start-up only the level changes (log 26). -/
def Obligations.PresentLineAndSlotLoss : Prop :=
  ∀ (s : State) (slot : SlotIx),
    (s.restart.startUp = .running → rd s.present slot = false → exec (.presentAsserted slot) s =
      .next { s with present := wr s.present slot true,
                     links := wr s.links slot { s.link slot with listening := true, receiver := .hunting } }) ∧
    (rd s.present slot = true → exec (.presentAsserted slot) s = .next s) ∧
    (s.restart.startUp ≠ .running → exec (.presentAsserted slot) s = .next { s with present := wr s.present slot true } ∧
      exec (.slotLoss slot) s = .next { s with present := wr s.present slot false }) ∧
    (s.restart.startUp = .running →
      let u : State := { s with present := wr s.present slot false, links := wr s.links slot LinkRec.mute }
      let r := u.oneMoment (fun v => (v.retire (portOf slot .a) .slotLoss).retire (portOf slot .b) .slotLoss)
      ∃ t, exec (.slotLoss slot) s = .next t ∧
        t.present = wr s.present slot false ∧ t.links = wr s.links slot LinkRec.mute ∧
        t.grantAt (portOf slot .a) = none ∧ t.grantAt (portOf slot .b) = none ∧
        t.engine = r.engine ∧ t.switch = r.switch ∧ t.loops = r.loops ∧ t.attn slot = false ∧
        (∀ p k, (rd (rd t.notices.ports p).kinds k).seq = (rd (rd s.notices.ports p).kinds k).seq) ∧
        (∀ j, j ≠ slot → t.attn j = s.attn j ∧ rd t.notices.slots j = rd s.notices.slots j) ∧
        t.restart = s.restart ∧ t.station = s.station ∧ t.plan = s.plan ∧ t.maint = s.maint ∧ t.pending = s.pending)

/-! ### Grants: REQUEST and allocation -/

/-- The search of R9, in its order: the lowest LOCKED loop whose entry satisfies the target, else the lowest loop in ACQUIRING, TRACKING or WAITING
whose entry satisfies it, else the lowest idle, unquarantined loop on the lowest entry that satisfies it, excluded loops left aside; and no loop
where none of these is found. -/
def Obligations.AllocationSearchOrder : Prop :=
  ∀ (s : State) (f tol : Nat) (ex : Option LoopIx),
    let sat : LoopIx → EntryIx → Nat → Prop := fun k i d =>
      ex ≠ some k ∧ (s.loop k).run.map Run.entry = some i ∧ matchEntry s.plan s.station.rate i f tol = some d
    let locked : LoopIx → Prop := fun k => (s.loop k).state = .locked
    let unlocked : LoopIx → Prop := fun k => (s.loop k).state = .acquiring ∨ (s.loop k).state = .tracking ∨ (s.loop k).state = .waiting
    let startable : LoopIx → Prop := fun k => ex ≠ some k ∧ (s.loop k).state = .idle ∧ (s.loop k).failed = none
    (∀ k i d, locked k → sat k i d → (∀ j < k, locked j → ∀ i d, ¬ sat j i d) →
      s.allocate f tol ex = some { loop := k, entry := i, d := d }) ∧
    ((∀ j, locked j → ∀ i d, ¬ sat j i d) →
      (∀ k i d, unlocked k → sat k i d → (∀ j < k, unlocked j → ∀ i d, ¬ sat j i d) →
        s.allocate f tol ex = some { loop := k, entry := i, d := d }) ∧
      ((∀ j, unlocked j → ∀ i d, ¬ sat j i d) →
        (∀ k i d, startable k → (∀ j < k, ¬ startable j) → matchEntry s.plan s.station.rate i f tol = some d →
          (∀ j < i, matchEntry s.plan s.station.rate j f tol = none) → s.allocate f tol ex = some { loop := k, entry := i, d := d }) ∧
        ((∀ k, ¬ startable k) ∨ (∀ i, matchEntry s.plan s.station.rate i f tol = none) → s.allocate f tol ex = none)))

/-- A REQUEST refused (R8, R10), in the order of its checks: HELD, BAD_REQUEST, IN_USE, then for an unaligned one NO_MATCH when no entry satisfies
the target and NO_LOOP when one does but no loop could be given. The answer is all that changes. -/
def Obligations.RequestRefused : Prop :=
  ∀ (s : State) (slot : SlotIx) (tag : Tag) (a : RequestArgs), s.linkReady slot →
    let p := portOf slot a.line
    let inRange := 1 ≤ a.f ∧ a.f ≤ 250000000 ∧ 1 ≤ a.tol ∧ a.tol ≤ 500 ∧
      (if a.policy = .fallback then 1 ≤ a.fd ∧ a.fd ≤ 65535 else a.fd = 0) ∧ (a.lease = 0 ∨ (1 ≤ a.lease ∧ a.lease ≤ 3600))
    let refused := fun st => exec (.request slot tag a) s = .next (s.answer slot tag { status := st, payload := [] })
    (s.maint.hold = true → refused .held) ∧
    (s.maint.hold = false → ¬ inRange → refused .badRequest) ∧
    (s.maint.hold = false → inRange → (s.grantAt p).isSome = true → refused .inUse) ∧
    (s.maint.hold = false → inRange → s.grantAt p = none → a.align = none → s.allocate a.f a.tol none = none →
      ((∀ i, matchEntry s.plan s.station.rate i a.f a.tol = none) → refused .noMatch) ∧
      ((∃ i, (matchEntry s.plan s.station.rate i a.f a.tol).isSome = true) → refused .noLoop))

/-- A REQUEST that allocation serves creates its grant in one action (R3, R6, R11, R12): the next generation, the PENDING record, a CURRENT binding at
the tail of the loop's list, a start when the loop was IDLE, and a switch of the port to the loop when it is LOCKED and to the pending source
otherwise; it is answered OK with the handle, PENDING, the lease time and no group; nothing else changes, and no notice is raised. -/
def Obligations.RequestCreatesGrant : Prop :=
  ∀ (s : State) (slot : SlotIx) (tag : Tag) (a : RequestArgs) (b : GrantBinding), s.linkReady slot → s.maint.hold = false →
    1 ≤ a.f ∧ a.f ≤ 250000000 ∧ 1 ≤ a.tol ∧ a.tol ≤ 500 ∧
      (if a.policy = .fallback then 1 ≤ a.fd ∧ a.fd ≤ 65535 else a.fd = 0) ∧ (a.lease = 0 ∨ (1 ≤ a.lease ∧ a.lease ≤ 3600)) →
    s.grantAt (portOf slot a.line) = none → a.align = none → s.allocate a.f a.tol none = some b →
    let p := portOf slot a.line
    let gen : Mod16 := rd s.engine.generations p + 1
    let mode := planMode s.plan b.entry
    let started : LoopRec :=
      { state := if s.station.station = none then .waiting else .acquiring, failed := none,
        run := some { entry := b.entry, mode := mode }, good := 0, lastError := none,
        timer := some (match mode with
          | .auto => { kind := .acquire, remaining := s.loops.acquireLimit }
          | .timed settle => { kind := .settle, remaining := settle }) }
    let loops := if (s.loop b.loop).state = .idle then { s.loops with loops := wr s.loops.loops b.loop started } else s.loops
    let target : Source := if (s.loop b.loop).state = .locked then .loop b.loop b.d none
      else if a.policy = .fallback then .fallback a.fd else .none
    let grant : Grant :=
      { gen := gen, state := .pending, f := a.f, tol := a.tol, policy := a.policy,
        fd := if a.policy = .fallback then some a.fd else none,
        lease := if a.lease = 0 then none else some { period := a.lease, remaining := a.lease * 1000 },
        binding := some b, group := none, retune := none, mark := false }
    let binding : Binding := { handle := { port := p, gen := gen }, d := b.d, role := .current }
    exec (.request slot tag a) s = .next (State.answer
      { s with
        engine := { s.engine with generations := wr s.engine.generations p gen, grants := wr s.engine.grants p (some grant),
                                  lists := wr s.engine.lists b.loop (rd s.engine.lists b.loop ++ [binding]) },
        loops := loops,
        switch := s.switch.request loops.loops s.station.station p target }
      slot tag { status := .ok, payload := [toByte p.val, toByte gen.val, 0x00#8] ++ be32 (a.lease * 1000) ++ [0x00#8] })

/-- An aligned REQUEST refused (R14), in the order of its checks after those of R8: STALE, ALIGN_REFUSED for a STRANDED grant or one with a NEW_LOOP
retune, NO_LOOP for a loop in HOLDOVER, NO_MATCH, ALIGN_REFUSED for a full group, for want of a group id, and for a least common multiple above
4,096. The answer is all that changes. -/
def Obligations.AlignedRequestRefused : Prop :=
  ∀ (s : State) (slot : SlotIx) (tag : Tag) (a : RequestArgs) (hd : Handle), s.linkReady slot → s.maint.hold = false →
    requestAcceptable a = true → s.grantAt (portOf slot a.line) = none → a.align = some hd →
    let refused := fun st => exec (.request slot tag a) s = .next (s.answer slot tag { status := st, payload := [] })
    (s.resolve hd = none → refused .stale) ∧
    (∀ h, s.resolve hd = some h →
      (h.state = .stranded ∨ (∃ t f tol cut, h.retune = some (.newLoop t f tol cut)) → refused .alignRefused) ∧
      (∀ hb, h.state ≠ .stranded → (∀ t f tol cut, h.retune ≠ some (.newLoop t f tol cut)) → h.binding = some hb →
        ((s.loop hb.loop).state = .holdover → refused .noLoop) ∧
        ((s.loop hb.loop).state ≠ .holdover →
          (matchEntry s.plan s.station.rate hb.entry a.f a.tol = none → refused .noMatch) ∧
          (∀ d, matchEntry s.plan s.station.rate hb.entry a.f a.tol = some d →
            (∀ gi gr, h.group = some gi → rd s.engine.groups gi = some gr →
              (8 ≤ gr.members.length → refused .alignRefused) ∧
              (gr.members.length < 8 → 4096 < lcmOf (d :: gr.g :: s.memberDividers gr.members) → refused .alignRefused)) ∧
            (h.group = none →
              ((∀ gi, (rd s.engine.groups gi).isSome = true) → refused .alignRefused) ∧
              (4096 < lcmOf (d :: h.groupDividers) → refused .alignRefused))))))

/-- The dividers and least common multiples of R14 step 7 and R112: a grant brings its binding's divider and, while a SAME_LOOP retune is in
flight, its new one; the multiple is a multiple of each and divides every other common multiple; and the value formed for a grouped retune is the
least common multiple of G, the new divider, and the new divider of every other member with a SAME_LOOP retune in flight. -/
def Obligations.AlignmentDividers : Prop :=
  (∀ (g : Grant) (b : GrantBinding) (d f tol : Nat), g.binding = some b →
    (g.retune = none → g.groupDividers = [b.d]) ∧ (g.retune = some (.sameLoop d f tol) → g.groupDividers = [b.d, d])) ∧
  (∀ (s : State) (hs : List Handle) (d : Nat), d ∈ s.memberDividers hs ↔ ∃ h ∈ hs, ∃ g, s.grantAt h.port = some g ∧ d ∈ g.groupDividers) ∧
  (∀ l : List Nat, (∀ d ∈ l, d ∣ lcmOf l) ∧ (∀ m, (∀ d ∈ l, d ∣ m) → lcmOf l ∣ m)) ∧
  (∀ (s : State) (h : Handle) (gr : Group) (d m : Nat),
    s.retuneValue h gr d ∣ m ↔ gr.g ∣ m ∧ d ∣ m ∧
      ∀ x ∈ gr.members, x ≠ h → ∀ g d' f tol, s.grantAt x.port = some g → g.retune = some (.sameLoop d' f tol) → d' ∣ m)

/-- An aligned REQUEST around an ungrouped grant (R13, R14, R15): the new grant is bound to the aligned grant's loop and entry, the lowest free group
is formed of the two with their least common multiple, both records name it, its divider is established, the new grant's port is switched by its
state, and the aligned grant's port is switched only when it runs from the loop. -/
def Obligations.AlignedRequestFormsGroup : Prop :=
  ∀ (s : State) (slot : SlotIx) (tag : Tag) (a : RequestArgs) (hd : Handle) (h : Grant) (hb : GrantBinding) (d : Nat) (gi : GroupIx),
    s.linkReady slot → s.maint.hold = false → requestAcceptable a = true → s.grantAt (portOf slot a.line) = none → a.align = some hd →
    s.resolve hd = some h → h.binding = some hb → h.state ≠ .stranded → (∀ t f tol cut, h.retune ≠ some (.newLoop t f tol cut)) →
    (s.loop hb.loop).state ≠ .holdover → (s.loop hb.loop).state ≠ .idle → matchEntry s.plan s.station.rate hb.entry a.f a.tol = some d →
    h.group = none → rd s.engine.groups gi = none → (∀ j < gi, (rd s.engine.groups j).isSome = true) → lcmOf (d :: h.groupDividers) ≤ 4096 →
    let p := portOf slot a.line
    let gen : Mod16 := rd s.engine.generations p + 1
    let g := lcmOf (d :: h.groupDividers)
    let grant : Grant :=
      { gen := gen, state := .pending, f := a.f, tol := a.tol, policy := a.policy, fd := if a.policy = .fallback then some a.fd else none,
        lease := if a.lease = 0 then none else some { period := a.lease, remaining := a.lease * 1000 },
        binding := some { loop := hb.loop, entry := hb.entry, d := d }, group := some gi, retune := none, mark := false }
    let own : Handle := { port := p, gen := gen }
    let target : Source := if (s.loop hb.loop).state = .locked then .loop hb.loop d (some gi)
      else if a.policy = .fallback then .fallback a.fd else .none
    let given := (s.switch.giveDivider s.loops.loops s.station.station gi hb.loop g).request s.loops.loops s.station.station p target
    let realigned : Source := .loop hb.loop (match h.retune with
      | some (.sameLoop d' _ _) => d'
      | _ => hb.d) (some gi)
    exec (.request slot tag a) s = .next (State.answer
      { s with
        engine := { generations := wr s.engine.generations p gen,
                    grants := wr (wr s.engine.grants p (some grant)) hd.port (some { h with group := some gi }),
                    lists := wr s.engine.lists hb.loop (rd s.engine.lists hb.loop ++ [{ handle := own, d := d, role := .current }]),
                    groups := wr s.engine.groups gi (some { loop := hb.loop, g := g, members := [hd, own] }) },
        switch := if h.state = .active ∨ (h.state = .degraded ∧ h.policy = .keep) then
            given.request s.loops.loops s.station.station hd.port realigned else given }
      slot tag { status := .ok, payload := [toByte p.val, toByte gen.val, 0x00#8] ++ be32 (a.lease * 1000) ++ [toByte (gi.val + 1)] })

/-- An aligned REQUEST around a grouped grant (R14, R16): the new grant joins at the tail of the member list, the group divider becomes the least
common multiple, and the port switch unit is given it exactly when it has grown. -/
def Obligations.AlignedRequestJoinsGroup : Prop :=
  ∀ (s : State) (slot : SlotIx) (tag : Tag) (a : RequestArgs) (hd : Handle) (h : Grant) (hb : GrantBinding) (d : Nat) (gi : GroupIx) (gr : Group),
    s.linkReady slot → s.maint.hold = false → requestAcceptable a = true → s.grantAt (portOf slot a.line) = none → a.align = some hd →
    s.resolve hd = some h → h.binding = some hb → h.state ≠ .stranded → (∀ t f tol cut, h.retune ≠ some (.newLoop t f tol cut)) →
    (s.loop hb.loop).state ≠ .holdover → (s.loop hb.loop).state ≠ .idle → matchEntry s.plan s.station.rate hb.entry a.f a.tol = some d →
    h.group = some gi → rd s.engine.groups gi = some gr → gr.members.length < 8 → lcmOf (d :: gr.g :: s.memberDividers gr.members) ≤ 4096 →
    let p := portOf slot a.line
    let gen : Mod16 := rd s.engine.generations p + 1
    let g := lcmOf (d :: gr.g :: s.memberDividers gr.members)
    let grant : Grant :=
      { gen := gen, state := .pending, f := a.f, tol := a.tol, policy := a.policy, fd := if a.policy = .fallback then some a.fd else none,
        lease := if a.lease = 0 then none else some { period := a.lease, remaining := a.lease * 1000 },
        binding := some { loop := hb.loop, entry := hb.entry, d := d }, group := some gi, retune := none, mark := false }
    let own : Handle := { port := p, gen := gen }
    let target : Source := if (s.loop hb.loop).state = .locked then .loop hb.loop d (some gi)
      else if a.policy = .fallback then .fallback a.fd else .none
    exec (.request slot tag a) s = .next (State.answer
      { s with
        engine := { generations := wr s.engine.generations p gen, grants := wr s.engine.grants p (some grant),
                    lists := wr s.engine.lists hb.loop (rd s.engine.lists hb.loop ++ [{ handle := own, d := d, role := .current }]),
                    groups := wr s.engine.groups gi (some { gr with g := g, members := gr.members ++ [own] }) },
        switch := (if g = gr.g then s.switch else s.switch.giveDivider s.loops.loops s.station.station gi hb.loop g).request
          s.loops.loops s.station.station p target }
      slot tag { status := .ok, payload := [toByte p.val, toByte gen.val, 0x00#8] ++ be32 (a.lease * 1000) ++ [toByte (gi.val + 1)] })

/-! ### Grants: retirement, leases, reading -/

/-- How a retirement is asked for: RELEASE in the order of R20, FORCE_RETIRE (R179) and the expiry of a lease (R124). What the retirement itself does
is RetirementEffect. -/
def Obligations.RetirementRequested : Prop :=
  (∀ (s : State) (slot : SlotIx) (tag : Tag) (h : Handle), s.linkReady slot →
    (s.maint.hold = true → ∀ o, exec (.release slot tag o) s = .next (s.answer slot tag { status := .held, payload := [] })) ∧
    (s.maint.hold = false →
      exec (.release slot tag none) s = .next (s.answer slot tag { status := .badRequest, payload := [] }) ∧
      (h.port.val / 2 ≠ slot.val → exec (.release slot tag (some h)) s = .next (s.answer slot tag { status := .badRequest, payload := [] })) ∧
      (h.port.val / 2 = slot.val →
        (s.resolve h = none → exec (.release slot tag (some h)) s = .next (s.answer slot tag { status := .stale, payload := [] })) ∧
        ((s.resolve h).isSome = true → exec (.release slot tag (some h)) s =
          .next ((s.retire h.port .release).answer slot tag { status := .ok, payload := [] }))))) ∧
  (∀ (s : State) (h : Handle), s.restart.startUp = .running →
    exec (.forceRetire none) s =
      .next { s with maint := { s.maint with waiting := none, response := some { status := .badValue, payload := [] } } } ∧
    (s.resolve h = none → exec (.forceRetire (some h)) s =
      .next { s with maint := { s.maint with waiting := none, response := some { status := .stale, payload := [] } } }) ∧
    ((s.resolve h).isSome = true → ∃ t, t = s.retire h.port .forced ∧ exec (.forceRetire (some h)) s =
      .next { t with maint := { t.maint with waiting := none, response := some { status := .ok, payload := [] } } })) ∧
  (∀ (s : State) (p : PortIx) (g : Grant) (l : Lease), s.restart.startUp = .running → s.grantAt p = some g → g.lease = some l →
    (s.maint.hold = false → l.remaining = 0 → exec (.leaseExpiry p) s = .next (s.retire p .leaseExpired)) ∧
    (s.maint.hold = true ∨ l.remaining ≠ 0 → exec (.leaseExpiry p) s = .next s))

/-- What a retirement does (R18, R19, R21, R22): the grant leaves its group, which is dissolved when one member remains; its bindings leave their
lists, the others keeping their order, and a loop whose list is emptied by it is stopped; its port is OFF or switching toward OFF; its record is
removed and the generation kept; the nine kinds of its port are cleared with their sequence numbers kept, and RETIRED is raised with the reason and
the generation for a retirement by the card. At the ports a dissolved group's divider is released, each stopped loop is seen to go IDLE, and
then the grant's port is requested OFF (what each of these does is in GroupDividers, LoopFailureCarriedOut and PortSwitches). Everything else is
as it was. -/
def Obligations.RetirementEffect : Prop :=
  ∀ (s : State) (p : PortIx) (why : RetireWhy) (g : Grant), s.grantAt p = some g →
    let t := s.retire p why
    let h : Handle := { port := p, gen := g.gen }
    let held : LoopIx → Prop := fun k =>
      (∃ b, g.binding = some b ∧ b.loop = k) ∨ (∃ b f tol cut, g.retune = some (.newLoop b f tol cut) ∧ b.loop = k)
    let reason : Option RetireReason := match why with
      | .leaseExpired => some .leaseExpired
      | .forced => some .forced
      | _ => none
    t.grantAt p = none ∧ t.engine.generations = s.engine.generations ∧
    (g.group = none → t.engine.groups = s.engine.groups ∧ ∀ q, q ≠ p → t.grantAt q = s.grantAt q) ∧
    (∀ gi gr, g.group = some gi → rd s.engine.groups gi = some gr →
      let rest := gr.members.filter (fun m => m != h)
      (2 ≤ rest.length → t.engine.groups = wr s.engine.groups gi (some { gr with members := rest }) ∧ ∀ q, q ≠ p → t.grantAt q = s.grantAt q) ∧
      (rest.length ≤ 1 → t.engine.groups = wr s.engine.groups gi none ∧ rd t.switch.dividers gi = none ∧
        ∀ q, q ≠ p → t.grantAt q =
          if q ∈ rest.map Handle.port then (s.grantAt q).map (fun m => { m with group := none }) else s.grantAt q)) ∧
    (∀ k, (held k → t.list k = (s.list k).filter (fun b => b.handle != h)) ∧ (¬ held k → t.list k = s.list k)) ∧
    (∀ k, (held k ∧ (s.list k).any (fun b => b.handle == h) = true ∧ t.list k = [] →
        t.loop k = { state := .idle, failed := none, run := none, good := 0, lastError := none, timer := none }) ∧
      (¬ (held k ∧ (s.list k).any (fun b => b.handle == h) = true ∧ t.list k = []) → t.loop k = s.loop k)) ∧
    (((rd t.switch.ports p).switching = none ∧ (rd t.switch.ports p).current = .none) ∨
      ∃ sw, (rd t.switch.ports p).switching = some sw ∧ sw.target = .none) ∧
    (let dissolved : Option GroupIx := g.group.bind (fun gi => (rd s.engine.groups gi).bind (fun gr =>
       if (gr.members.filter (fun m => m != h)).length ≤ 1 then some gi else none))
     let bound : List LoopIx := (match g.binding with
       | some b => [b.loop]
       | none => []) ++ (match g.retune with
       | some (.newLoop b _ _ _) => [b.loop]
       | _ => [])
     let stop : Vector LoopRec 6 × SwitchUnit → LoopIx → Vector LoopRec 6 × SwitchUnit := fun x k =>
       if (s.list k).any (fun b => b.handle == h) ∧ (s.list k).filter (fun b => b.handle != h) = [] then
         let loops := wr x.1 k LoopRec.idle
         (loops, x.2.loopIdle loops s.station.station k)
       else x
     let freed : SwitchUnit := match dissolved with
       | some gi => s.switch.releaseDivider s.loops.loops s.station.station gi
       | none => s.switch
     let stopped := bound.dedup.foldl stop (s.loops.loops, freed)
     t.loops.loops = stopped.1 ∧ t.switch = stopped.2.request stopped.1 s.station.station p .none) ∧
    (∀ k : PortKind, let n := rd (rd s.notices.ports p).kinds k.index
      rd (rd t.notices.ports p).kinds k.index =
        if k = .retired ∧ reason.isSome = true then { pending := true, seq := n.seq + 1 } else { pending := false, seq := n.seq }) ∧
    (rd t.notices.ports p).retired = (match reason with
      | some r => some { reason := r, gen := g.gen }
      | none => (rd s.notices.ports p).retired) ∧
    (∀ q, q ≠ p → rd t.notices.ports q = rd s.notices.ports q) ∧ t.notices.slots = s.notices.slots ∧
    t.restart = s.restart ∧ t.present = s.present ∧ t.station = s.station ∧ t.plan = s.plan ∧ t.maint = s.maint ∧ t.links = s.links ∧
    t.pending = s.pending ∧ t.loops.acquireLimit = s.loops.acquireLimit ∧ t.loops.holdoverLimit = s.loops.holdoverLimit ∧
    t.loops.events = s.loops.events

/-- RENEW in the order of R123: HELD, BAD_REQUEST, STALE, NOT_LEASED, and otherwise the countdown restarts at the new period, or at the existing one
when the period is 0; the answer carries the period and the remaining time. Nothing but the lease changes. -/
def Obligations.RenewRestartsLease : Prop :=
  ∀ (s : State) (slot : SlotIx) (tag : Tag) (h : Handle) (period : Nat), s.linkReady slot →
    let answered := fun st => exec (.renew slot tag (some h) period) s = .next (s.answer slot tag { status := st, payload := [] })
    (s.maint.hold = true → answered .held) ∧
    (s.maint.hold = false →
      exec (.renew slot tag none period) s = .next (s.answer slot tag { status := .badRequest, payload := [] }) ∧
      (h.port.val / 2 ≠ slot.val ∨ 3600 < period → answered .badRequest) ∧
      (h.port.val / 2 = slot.val → period ≤ 3600 →
        (s.resolve h = none → answered .stale) ∧
        (∀ g, s.resolve h = some g →
          (g.lease = none → answered .notLeased) ∧
          (∀ l, g.lease = some l →
            let n := if period = 0 then l.period else period
            let renewed : Grant := { g with lease := some { period := n, remaining := n * 1000 } }
            exec (.renew slot tag (some h) period) s = .next (State.answer
              { s with engine := { s.engine with grants := wr s.engine.grants h.port (some renewed) } }
              slot tag { status := .ok, payload := be16 n ++ be32 (n * 1000) })))))

/-- QUERY and NOTICES read and change nothing but the link, under inspection hold too (R25, R146): QUERY lists the grants of the line named, or
of line A before line B, a count and one entry of 29 bytes for each port that holds a grant, its fields in the order of R163; NOTICES lists the
pending kinds of the slot, of line A and of line B, each in the order of Table 8-1, a count and five bytes each: place, kind, sequence number,
and the reason and generation for RETIRED (R164). The codes are those of Table 9-2. A raise makes its kind pending with its sequence number one
higher modulo 16, pending before or not, and touches no other kind (R143). -/
def Obligations.QueryAndNotices : Prop :=
  (∀ (s : State) (slot : SlotIx) (tag : Tag), s.linkReady slot →
    (∀ line,
      let ports := match line with
        | none => [portOf slot .a, portOf slot .b]
        | some l => [portOf slot l]
      let entries := ports.filterMap (fun p => (s.grantAt p).map (fun g => g.entryBytes p))
      exec (.query slot tag line) s = .next (s.answer slot tag { status := .ok, payload := listBytes entries })) ∧
    (∀ (g : Grant) (p : PortIx), (g.entryBytes p).length = 29 ∧
      g.entryBytes p =
        [toByte p.val, toByte g.gen.val, toByte (List.idxOf g.state [.pending, .active, .degraded, .stranded])] ++ be32 g.f ++ be16 g.tol ++
        [toByte (List.idxOf g.policy [.fallback, .stop, .keep])] ++ be16 (g.fd.getD 0) ++
        (match g.lease with
         | some l => be16 l.period ++ be32 l.remaining
         | none => List.replicate 6 0x00#8) ++
        (match g.binding with
         | some b => [toByte b.loop.val, toByte b.entry.val, toByte b.d]
         | none => List.replicate 3 0xFF#8) ++
        [match g.group with
         | some gi => toByte (gi.val + 1)
         | none => 0x00#8] ++
        (match g.retune with
         | none => List.replicate 7 0x00#8
         | some (.sameLoop _ f tol) => [0x01#8] ++ be32 f ++ be16 tol
         | some (.newLoop _ f tol _) => [0x02#8] ++ be32 f ++ be16 tol)) ∧
    exec (.notices slot tag) s = .next (s.answer slot tag { status := .ok, payload := listBytes (s.noticeEntries slot) }) ∧
    (let own := rd s.notices.slots slot
     let line : PortIx → Byte → List (List Byte) := fun p place =>
       let n := rd s.notices.ports p
       ((List.finRange 9).filter (fun i => (rd n.kinds i).pending)).map (fun i => [place, toByte i.val, toByte (rd n.kinds i).seq.val] ++
         (match n.retired with
          | some r => if i = 8 then [if r.reason = .leaseExpired then 0x01#8 else 0x02#8, toByte r.gen.val] else [0x00#8, 0x00#8]
          | none => [0x00#8, 0x00#8]))
     s.noticeEntries slot =
       (if own.restarted.pending then [[0x00#8, 0x09#8, toByte own.restarted.seq.val, 0x00#8, 0x00#8]] else []) ++
       (if own.continued.pending then [[0x00#8, 0x0A#8, toByte own.continued.seq.val, 0x00#8, 0x00#8]] else []) ++
       line (portOf slot .a) 0x01#8 ++ line (portOf slot .b) 0x02#8) ∧
    (∀ e ∈ s.noticeEntries slot, e.length = 5) ∧
    (s.noticeEntries slot = [] ↔ s.attn slot = false)) ∧
  (∀ (u : NoticeUnit) (p : PortIx) (k : PortKind),
    (let n := rd (rd u.ports p).kinds k.index
     rd (rd (u.raise p k).ports p).kinds k.index = { pending := true, seq := ⟨(n.seq.val + 1) % 16, Nat.mod_lt _ (by decide)⟩ }) ∧
    (∀ j, j ≠ k.index → rd (rd (u.raise p k).ports p).kinds j = rd (rd u.ports p).kinds j) ∧
    (rd (u.raise p k).ports p).retired = (rd u.ports p).retired ∧
    (∀ q, q ≠ p → rd (u.raise p k).ports q = rd u.ports q) ∧ (u.raise p k).slots = u.slots)

/-- ACK in the order of R147: HELD unless acknowledgements are allowed, BAD_REQUEST for a kind of the other sort or a sequence number above 15, OK
with nothing changed for a kind that is not pending, cleared for a pending kind with the sequence number it stands at, STALE_NOTICE with that number
otherwise. A clear keeps the sequence number. -/
def Obligations.AckClears : Prop :=
  ∀ (s : State) (slot : SlotIx) (tag : Tag) (seq : Nat), s.linkReady slot →
    let answered := fun place kind st => exec (.ack slot tag place kind seq) s = .next (s.answer slot tag { status := st, payload := [] })
    (s.maint.hold = true → s.maint.allowAcks = false → ∀ place kind, answered place kind .held) ∧
    (s.maint.hold = false ∨ s.maint.allowAcks = true →
      (∀ k, answered .slot (.port k) .badRequest) ∧
      (∀ k, answered .lineA (.slot k) .badRequest ∧ answered .lineB (.slot k) .badRequest) ∧
      (15 < seq → ∀ place kind, answered place kind .badRequest) ∧
      (seq ≤ 15 →
        (∀ (line : Line) (k : PortKind),
          let p := portOf slot line
          let place := if line = .a then Place.lineA else Place.lineB
          let n := rd (rd s.notices.ports p).kinds k.index
          let after : PortNotices :=
            { rd s.notices.ports p with kinds := wr (rd s.notices.ports p).kinds k.index { pending := false, seq := n.seq } }
          (n.pending = false → answered place (.port k) .ok) ∧
          (n.pending = true → n.seq.val ≠ seq → exec (.ack slot tag place (.port k) seq) s =
            .next (s.answer slot tag { status := .staleNotice, payload := [toByte n.seq.val] })) ∧
          (n.pending = true → n.seq.val = seq → exec (.ack slot tag place (.port k) seq) s = .next (State.answer
            { s with notices := { s.notices with ports := wr s.notices.ports p after } }
            slot tag { status := .ok, payload := [] }))) ∧
        (let r := (rd s.notices.slots slot).restarted
         let after : SlotNotices := { rd s.notices.slots slot with restarted := { pending := false, seq := r.seq } }
         (r.pending = false → answered .slot (.slot .restarted) .ok) ∧
         (r.pending = true → r.seq.val ≠ seq → exec (.ack slot tag .slot (.slot .restarted) seq) s =
            .next (s.answer slot tag { status := .staleNotice, payload := [toByte r.seq.val] })) ∧
         (r.pending = true → r.seq.val = seq → exec (.ack slot tag .slot (.slot .restarted) seq) s = .next (State.answer
            { s with notices := { s.notices with slots := wr s.notices.slots slot after } }
            slot tag { status := .ok, payload := [] }))) ∧
        (let c := (rd s.notices.slots slot).continued
         let after : SlotNotices := { rd s.notices.slots slot with continued := { pending := false, seq := c.seq } }
         (c.pending = false → answered .slot (.slot .continued) .ok) ∧
         (c.pending = true → c.seq.val ≠ seq → exec (.ack slot tag .slot (.slot .continued) seq) s =
            .next (s.answer slot tag { status := .staleNotice, payload := [toByte c.seq.val] })) ∧
         (c.pending = true → c.seq.val = seq → exec (.ack slot tag .slot (.slot .continued) seq) s = .next (State.answer
            { s with notices := { s.notices with slots := wr s.notices.slots slot after } }
            slot tag { status := .ok, payload := [] })))))

/-- HELLO (R166): HELD under inspection hold; with keep the slot kinds are cleared and nothing else changes; without keep both ports are retired,
line A first and their requests in one moment (log 6), and none of the slot's kinds stays pending, its kinds' sequence numbers, the slot kinds' and the other slots' notices being kept. The
answer counts the slot's grants as they were before. -/
def Obligations.HelloKeepsOrDrops : Prop :=
  ∀ (s : State) (slot : SlotIx) (tag : Tag), s.linkReady slot →
    let a := portOf slot .a
    let b := portOf slot .b
    let count := (if (s.grantAt a).isSome then 1 else 0) + (if (s.grantAt b).isSome then 1 else 0)
    let sl := rd s.notices.slots slot
    let cleared : SlotNotices := { restarted := { sl.restarted with pending := false }, continued := { sl.continued with pending := false } }
    (s.maint.hold = true → ∀ keep, exec (.hello slot tag keep) s = .next (s.answer slot tag { status := .held, payload := [] })) ∧
    (s.maint.hold = false →
      exec (.hello slot tag true) s = .next (State.answer { s with notices := { s.notices with slots := wr s.notices.slots slot cleared } }
        slot tag { status := .ok, payload := [toByte count] }) ∧
      ∃ t : State, exec (.hello slot tag false) s = .next (t.answer slot tag { status := .ok, payload := [toByte count] }) ∧
        t.grantAt a = none ∧ t.grantAt b = none ∧ t.attn slot = false ∧ t.notices.slots = wr s.notices.slots slot cleared ∧
        (∀ p k, rd (rd t.notices.ports p).kinds k =
          if p = a ∨ p = b then { rd (rd s.notices.ports p).kinds k with pending := false } else rd (rd s.notices.ports p).kinds k) ∧
        (let r := s.oneMoment (fun v => (v.retire a .helloDrop).retire b .helloDrop)
         t.engine = r.engine ∧ t.loops = r.loops ∧ t.switch = r.switch) ∧
        t.restart = s.restart ∧ t.present = s.present ∧ t.station = s.station ∧ t.plan = s.plan ∧ t.maint = s.maint ∧ t.links = s.links ∧
        t.pending = s.pending)

/-! ### Retunes -/

/-- The port target of a grant (R7, Table 1-7; R108): by its state and policy, and by its retune when one is in flight. -/
def Obligations.PortTargetByState : Prop :=
  ∀ (s : State) (g : Grant),
    (∀ fd, g.policy = .fallback → g.fd = some fd → g.pendingSource = .fallback fd) ∧
    (g.policy ≠ .fallback → g.pendingSource = .none) ∧
    (∀ b d f tol, g.binding = some b → g.retune = some (.sameLoop d f tol) → s.portTarget g = .loop b.loop d g.group) ∧
    (∀ t f tol, g.retune = some (.newLoop t f tol .inFlight) → s.portTarget g = .loop t.loop t.d none) ∧
    (g.retune = none ∨ (∃ t f tol, g.retune = some (.newLoop t f tol .awaitingLock)) →
      (∀ b, g.binding = some b →
        (g.state = .pending → (s.loop b.loop).state = .locked ∨ (s.loop b.loop).state = .holdover →
          s.portTarget g = .loop b.loop b.d g.group) ∧
        (g.state = .pending → (s.loop b.loop).state ≠ .locked → (s.loop b.loop).state ≠ .holdover → s.portTarget g = g.pendingSource) ∧
        (g.state = .active → s.portTarget g = .loop b.loop b.d g.group) ∧
        (g.state = .degraded → g.policy = .keep → s.portTarget g = .loop b.loop b.d g.group) ∧
        (g.state = .degraded → g.policy ≠ .keep → s.portTarget g = g.pendingSource)) ∧
      (g.state = .stranded → s.portTarget g = g.pendingSource))

/-- A RETUNE refused (R109, R111, R112, R119), in the order of its checks: HELD, BAD_REQUEST, STALE, RETUNE_BUSY; for a STRANDED grant and for an
ungrouped one NO_MATCH or NO_LOOP when nothing serves the new target; ALIGN_REFUSED for a grouped grant that neither attempt (a) nor (b) serves or
whose least common multiple would exceed 4,096. The answer is all that changes. -/
def Obligations.RetuneRefused : Prop :=
  ∀ (s : State) (slot : SlotIx) (tag : Tag) (h : Handle) (f tol : Nat) (gap : Bool), s.linkReady slot →
    let asked : Option Handle → RetuneArgs := fun o => { handle := o, f := f, tol := tol, allowGap := gap }
    let refused := fun st => exec (.retune slot tag (asked (some h))) s = .next (s.answer slot tag { status := st, payload := [] })
    let inRange := 1 ≤ f ∧ f ≤ 250000000 ∧ 1 ≤ tol ∧ tol ≤ 500
    let unmatched := ∀ i, matchEntry s.plan s.station.rate i f tol = none
    (s.maint.hold = true → refused .held) ∧
    (s.maint.hold = false →
      exec (.retune slot tag (asked none)) s = .next (s.answer slot tag { status := .badRequest, payload := [] }) ∧
      (h.port.val / 2 ≠ slot.val ∨ ¬ inRange → refused .badRequest) ∧
      (h.port.val / 2 = slot.val → inRange →
        (s.resolve h = none → refused .stale) ∧
        (∀ g, s.resolve h = some g →
          (g.retune.isSome = true → refused .retuneBusy) ∧
          (g.retune = none →
            (g.binding = none → s.allocate f tol none = none → (unmatched → refused .noMatch) ∧ (¬ unmatched → refused .noLoop)) ∧
            (∀ b, g.binding = some b →
              (matchEntry s.plan s.station.rate b.entry f tol = none →
                (g.group.isSome = true → refused .alignRefused) ∧
                (g.group = none → s.allocate f tol (some b.loop) = none →
                  (unmatched → refused .noMatch) ∧
                  (¬ unmatched → gap = false ∨ (s.list b.loop).length ≠ 1 → refused .noLoop))) ∧
              (∀ d gi gr, matchEntry s.plan s.station.rate b.entry f tol = some d → d ≠ b.d → g.group = some gi →
                rd s.engine.groups gi = some gr → 4096 < s.retuneValue h gr d → refused .alignRefused))))))

/-- A RETUNE of a STRANDED grant that allocation serves (R110): the new target, a CURRENT binding at the tail of the found loop's list with its start,
PENDING, and the port requested by that state; answered FRESH with the binding. No notice is raised. -/
def Obligations.RetuneOfStrandedGrant : Prop :=
  ∀ (s : State) (slot : SlotIx) (tag : Tag) (h : Handle) (g : Grant) (f tol : Nat) (gap : Bool) (b : GrantBinding), s.linkReady slot →
    s.maint.hold = false → h.port.val / 2 = slot.val → 1 ≤ f ∧ f ≤ 250000000 ∧ 1 ≤ tol ∧ tol ≤ 500 → s.resolve h = some g →
    g.state = .stranded → g.binding = none → g.retune = none → s.allocate f tol none = some b →
    let bound : Grant := { g with f := f, tol := tol, state := .pending, binding := some b }
    let started : LoopRec := LoopRec.started s.loops.acquireLimit s.station.station b.entry (planMode s.plan b.entry)
    let loops := if (s.loop b.loop).state = .idle then { s.loops with loops := wr s.loops.loops b.loop started } else s.loops
    let target : Source := if (s.loop b.loop).state = .locked then .loop b.loop b.d g.group else g.pendingSource
    exec (.retune slot tag { handle := some h, f := f, tol := tol, allowGap := gap }) s = .next (State.answer
      { s with
        engine := { s.engine with grants := wr s.engine.grants h.port (some bound),
                                  lists := wr s.engine.lists b.loop (rd s.engine.lists b.loop ++ [{ handle := h, d := b.d, role := .current }]) },
        loops := loops, switch := s.switch.request loops.loops s.station.station h.port target }
      slot tag { status := .ok, payload := [toByte h.port.val, toByte h.gen.val, 0x00#8, 0x04#8, 0x00#8,
                                            toByte b.loop.val, toByte b.entry.val, toByte b.d] })

/-- A RETUNE on the grant's own loop (R111 (a), R112, R113). With the present divider only the target changes, with RETUNED; with another divider
an ACTIVE grant takes a SAME_LOOP record and its port is sent to the new divider, and a PENDING or DEGRADED grant takes the divider at once, with
RETUNED, its port requested by its state; for a grouped grant the port switch unit is given the value formed, at once or when it exceeds the
value there (the comparison is the model's reading, log 16). -/
def Obligations.RetuneOnOwnLoop : Prop :=
  ∀ (s : State) (slot : SlotIx) (tag : Tag) (h : Handle) (g : Grant) (f tol : Nat) (gap : Bool) (b : GrantBinding) (d : Nat), s.linkReady slot →
    s.maint.hold = false → h.port.val / 2 = slot.val → 1 ≤ f ∧ f ≤ 250000000 ∧ 1 ≤ tol ∧ tol ≤ 500 → s.resolve h = some g →
    g.retune = none → g.binding = some b → matchEntry s.plan s.station.rate b.entry f tol = some d →
    let p := h.port
    let asked : Instr := .retune slot tag { handle := some h, f := f, tol := tol, allowGap := gap }
    let head := fun form flight => [toByte p.val, toByte h.gen.val, toByte g.state.code, toByte form, toByte flight]
    let same : Grant := { g with f := f, tol := tol, mark := false }
    let moved : Grant := { g with f := f, tol := tol, mark := false, binding := some { b with d := d } }
    let flying : Grant := { g with retune := some (.sameLoop d f tol) }
    let list := (rd s.engine.lists b.loop).map (fun x => if x.handle = h then { x with d := d } else x)
    (d = b.d → exec asked s = .next (State.answer
      { s with engine := { s.engine with grants := wr s.engine.grants p (some same) }, notices := s.notices.raise p .retuned }
      slot tag { status := .ok, payload := head 0 0 ++ [0xFF#8, 0xFF#8, 0xFF#8] })) ∧
    (d ≠ b.d → g.group = none → g.state = .active → exec asked s = .next (State.answer
      { s with engine := { s.engine with grants := wr s.engine.grants p (some flying) },
               switch := s.switch.request s.loops.loops s.station.station p (.loop b.loop d none) }
      slot tag { status := .ok, payload := head 1 1 ++ [0xFF#8, 0xFF#8, 0xFF#8] })) ∧
    (d ≠ b.d → g.group = none → g.state ≠ .active → exec asked s = .next (State.answer
      { s with engine := { s.engine with grants := wr s.engine.grants p (some moved), lists := wr s.engine.lists b.loop list },
               notices := s.notices.raise p .retuned,
               switch := s.switch.request s.loops.loops s.station.station p (s.portTarget moved) }
      slot tag { status := .ok, payload := head 1 0 ++ [toByte b.loop.val, toByte b.entry.val, toByte d] })) ∧
    (∀ gi gr, d ≠ b.d → g.group = some gi → rd s.engine.groups gi = some gr → s.retuneValue h gr d ≤ 4096 →
      let v := s.retuneValue h gr d
      let given := s.switch.giveDivider s.loops.loops s.station.station gi b.loop v
      (g.state = .active → exec asked s = .next (State.answer
        { s with engine := { s.engine with grants := wr s.engine.grants p (some flying) },
                 switch := given.request s.loops.loops s.station.station p (.loop b.loop d (some gi)) }
        slot tag { status := .ok, payload := head 1 1 ++ [0xFF#8, 0xFF#8, 0xFF#8] })) ∧
      (g.state ≠ .active → ∀ dv, rd s.switch.dividers gi = some dv → exec asked s = .next (State.answer
        { s with engine := { s.engine with grants := wr s.engine.grants p (some moved), lists := wr s.engine.lists b.loop list,
                                           groups := wr s.engine.groups gi (some { gr with g := Nat.lcm gr.g d }) },
                 notices := s.notices.raise p .retuned,
                 switch := (if dv.value < v ∨ (∃ w, dv.pendingValue = some w ∧ w < v) then given else s.switch).request
                   s.loops.loops s.station.station p (s.portTarget moved) }
        slot tag { status := .ok, payload := head 1 0 ++ [toByte b.loop.val, toByte b.entry.val, toByte d] })))

/-- A RETUNE off the grant's binding (R111, R115, R116, R118), for an ungrouped grant whose entry does not satisfy the new target. Where
allocation finds another loop: a NEW_LOOP record and a RETUNE_TARGET binding with its start, the cut-over begun at once when that loop is LOCKED,
and awaiting lock otherwise with no switch requested. Where it finds none, allow_gap is given and the binding is the only one on its loop: the
loop restarts on the lowest entry that satisfies, and the grant is PENDING with its completion mark set and its port sent to its pending source.
-/
def Obligations.RetuneElsewhere : Prop :=
  ∀ (s : State) (slot : SlotIx) (tag : Tag) (h : Handle) (g : Grant) (f tol : Nat) (gap : Bool) (b : GrantBinding), s.linkReady slot →
    s.maint.hold = false → h.port.val / 2 = slot.val → 1 ≤ f ∧ f ≤ 250000000 ∧ 1 ≤ tol ∧ tol ≤ 500 → s.resolve h = some g →
    g.retune = none → g.group = none → g.binding = some b → matchEntry s.plan s.station.rate b.entry f tol = none →
    let p := h.port
    let asked : Instr := .retune slot tag { handle := some h, f := f, tol := tol, allowGap := gap }
    (∀ t, s.allocate f tol (some b.loop) = some t →
      let locked := (s.loop t.loop).state = .locked
      let retuned : Grant := { g with retune := some (.newLoop t f tol (if locked then .inFlight else .awaitingLock)) }
      let started : LoopRec := LoopRec.started s.loops.acquireLimit s.station.station t.entry (planMode s.plan t.entry)
      exec asked s = .next (State.answer
        { s with
          engine := { s.engine with grants := wr s.engine.grants p (some retuned),
                                    lists := wr s.engine.lists t.loop (rd s.engine.lists t.loop ++ [{ handle := h, d := t.d, role := .retuneTarget }]) },
          loops := if (s.loop t.loop).state = .idle then { s.loops with loops := wr s.loops.loops t.loop started } else s.loops,
          switch := if locked then s.switch.request s.loops.loops s.station.station p (.loop t.loop t.d none) else s.switch }
        slot tag { status := .ok, payload := [toByte p.val, toByte h.gen.val, toByte g.state.code, 0x02#8, 0x01#8, 0xFF#8, 0xFF#8, 0xFF#8] })) ∧
    (∀ i d, s.allocate f tol (some b.loop) = none → gap = true → (rd s.engine.lists b.loop).length = 1 →
      matchEntry s.plan s.station.rate i f tol = some d → (∀ j < i, matchEntry s.plan s.station.rate j f tol = none) →
      let restarted : LoopRec := LoopRec.started s.loops.acquireLimit s.station.station i (planMode s.plan i)
      let loops := wr s.loops.loops b.loop restarted
      let list := (rd s.engine.lists b.loop).map (fun x => if x.handle = h then { x with d := d } else x)
      let moved : Grant := { g with f := f, tol := tol, state := .pending, mark := true, binding := some { loop := b.loop, entry := i, d := d } }
      exec asked s = .next (State.answer
        { s with
          engine := { s.engine with grants := wr s.engine.grants p (some moved), lists := wr s.engine.lists b.loop list },
          loops := { s.loops with loops := loops },
          switch := (s.switch.advanceAll loops s.station.station).request loops s.station.station p g.pendingSource }
        slot tag { status := .ok, payload := [toByte p.val, toByte h.gen.val, 0x00#8, 0x03#8, 0x00#8, toByte b.loop.val, toByte i.val, toByte d] }))

/-! ### The maintenance port -/

/-- A write transfer (R171, R172, R174): one of no bytes changes nothing; at a RUNNING card a well-formed command waits and the response buffer is
emptied, and an ill-formed one is answered BAD_VALUE with an empty payload, which COMMAND_FORM_ERROR says of the same bytes; in start-up a RESTART
is taken and any other command is discarded with the response buffer emptied (an ill-formed one as any other, log 22). -/
def Obligations.WriteTransferPlaced : Prop :=
  ∀ (s : State) (bytes : List Byte),
    let buffers : Option (List Byte) → Option Response → Outcome := fun waiting response =>
      .next { s with maint := { s.maint with waiting := waiting, response := response } }
    exec (.writeTransfer []) s = .next s ∧
    (bytes ≠ [] →
      (s.restart.startUp = .running → (parseCommand bytes).isSome = true → exec (.writeTransfer bytes) s = buffers (some bytes) none) ∧
      (s.restart.startUp = .running → parseCommand bytes = none →
        exec (.writeTransfer bytes) s = buffers none (some { status := .badValue, payload := [] }) ∧
        exec (.commandFormError bytes) s = buffers none (some { status := .badValue, payload := [] })) ∧
      (s.restart.startUp = .settling ∨ s.restart.startUp = .restarting →
        (parseCommand bytes = some .restart → exec (.writeTransfer bytes) s = exec .restart s) ∧
        (parseCommand bytes ≠ some .restart → exec (.writeTransfer bytes) s = buffers none none)) ∧
      (s.restart.startUp = .supplyHeld → exec (.writeTransfer bytes) s = .next s))

/-- The form checks of R172: the transfer is a code, a length byte and as many payload bytes as it says, and the code reads the payload; nothing
else is a command. A transfer of one byte is none, nor is a code outside Table 10-3 or a length that it does not allow. A payload of an allowed
length is a command when every enumerated field holds the place of a value in its enumeration (R175), and none when one lies past the end of its
enumeration; a handle's generation above 15 and port byte 24..254 are undefined too (R179), and port byte 255 is no handle. A payload without an
enumerated field is always a command. -/
def Obligations.CommandForm : Prop :=
  (∀ b : Byte, parseCommand [b] = none) ∧
  (∀ (code len : Byte) (payload : List Byte),
    (payload.length ≠ len.toNat → parseCommand (code :: len :: payload) = none) ∧
    (payload.length = len.toNat → parseCommand (code :: len :: payload) = parseCommandPayload code.toNat payload)) ∧
  (∀ (code : Nat) (payload : List Byte), code ∉ [0x01, 0x10, 0x11, 0x12, 0x13, 0x20, 0x21, 0x22, 0x30, 0x40, 0x41, 0x42, 0x43, 0x44, 0x45, 0x46,
    0x47, 0x50, 0x51, 0x52, 0x60, 0x61] → parseCommandPayload code payload = none) ∧
  (∀ (code : Nat) (payload : List Byte) (c : Instr), parseCommandPayload code payload = some c →
    (code ∈ [0x01, 0x40, 0x45, 0x47, 0x61] → payload.length = 0) ∧ (code ∈ [0x13, 0x21, 0x22, 0x41, 0x42, 0x44, 0x46, 0x51, 0x60] → payload.length = 1) ∧
    (code = 0x43 → payload.length ≤ 1) ∧ (code ∈ [0x50, 0x52] → payload.length = 2) ∧ (code ∈ [0x10, 0x30] → payload.length = 4) ∧
    (code ∈ [0x11, 0x12] → payload.length = 6) ∧ (code = 0x20 → payload.length = 10)) ∧
  (let flag : Byte → Option Bool := fun b => [false, true][b.toNat]?
   let ref : Byte → Option Ref := fun b => [Ref.xo, .refa, .refb][b.toNat]?
   let mode : Byte → Option SelMode := fun b => [SelMode.revertive, .nonrevertive][b.toNat]?
   let period : Byte → Option QualPeriod := fun b => [QualPeriod.long, .short][b.toNat]?
   let cause : Byte → Option Cause := fun b => [Cause.stationNone, .loopFailed, .grantStranded, .stationSwitched, .referenceQualified][b.toNat]?
   let reads : Nat → List Byte → Instr → Prop := fun code payload c => parseCommandPayload code payload = some c
   let refused : Nat → List Byte → Prop := fun code payload => parseCommandPayload code payload = none
   reads 0x01 [] .identify ∧ reads 0x40 [] .readReferences ∧ reads 0x45 [] .readAttention ∧ reads 0x47 [] .readCause ∧ reads 0x61 [] .restart ∧
   reads 0x43 [] (.readGrant none) ∧
   (∀ x, reads 0x43 [x] (.readGrant (some x.toNat)) ∧ reads 0x21 [x] (.erasePlan x.toNat) ∧ reads 0x22 [x] (.readPlan x.toNat) ∧
     reads 0x41 [x] (.readLoop x.toNat) ∧ reads 0x42 [x] (.readPort x.toNat) ∧ reads 0x44 [x] (.readNotices x.toNat) ∧
     reads 0x51 [x] (.clearLoop x.toNat)) ∧
   (∀ a b c d, reads 0x10 [a, b, c, d] (.setStation (num32 a b c d)) ∧ reads 0x30 [a, b, c, d] (.setLimits (num16 a b) (num16 c d))) ∧
   (∀ r a b c d en,
     (∀ x on, ref r = some x → flag en = some on → reads 0x11 [r, a, b, c, d, en] (.setReference x (num32 a b c d) on)) ∧
     (2 < r.toNat ∨ 1 < en.toNat → refused 0x11 [r, a, b, c, d, en])) ∧
   (∀ a b c m d1 d0,
     (∀ x y z k, ref a = some x → ref b = some y → ref c = some z → mode m = some k →
       reads 0x12 [a, b, c, m, d1, d0] (.setPriority x y z k (num16 d1 d0))) ∧
     (2 < a.toNat ∨ 2 < b.toNat ∨ 2 < c.toNat ∨ 1 < m.toNat → refused 0x12 [a, b, c, m, d1, d0])) ∧
   (∀ q, (∀ x, period q = some x → reads 0x13 [q] (.setQualify x)) ∧ (1 < q.toNat → refused 0x13 [q])) ∧
   (∀ entry r n1 n0 p e l m s1 s0,
     (∀ timed, flag m = some timed → reads 0x20 [entry, r, n1, n0, p, e, l, m, s1, s0]
       (.writePlan { entry := entry.toNat, r := r.toNat, n := num16 n1 n0, p := p.toNat, e := e.toNat, l := l.toNat, timed := timed,
                     settle := num16 s1 s0 })) ∧
     (1 < m.toNat → refused 0x20 [entry, r, n1, n0, p, e, l, m, s1, s0])) ∧
   (∀ c, (∀ x, cause c = some x → reads 0x46 [c] (.ackAttention x)) ∧ (4 < c.toNat → refused 0x46 [c])) ∧
   (∀ port gen : Byte,
     (gen.toNat < 16 → port.toNat = 255 → reads 0x50 [port, gen] (.forceRetire none)) ∧
     (∀ h : Handle, h.port.val = port.toNat → h.gen.val = gen.toNat → reads 0x50 [port, gen] (.forceRetire (some h))) ∧
     (15 < gen.toNat ∨ (23 < port.toNat ∧ port.toNat < 255) → refused 0x50 [port, gen])) ∧
   (∀ on acks,
     (∀ x, flag on = some true → flag acks = some x → reads 0x52 [on, acks] (.holdOn x)) ∧
     (∀ x, flag on = some false → flag acks = some x → reads 0x52 [on, acks] (.holdOff x)) ∧
     (1 < on.toNat ∨ 1 < acks.toNat → refused 0x52 [on, acks])) ∧
   (∀ c, (∀ x, flag c = some x → reads 0x60 [c] (.setContinuity x)) ∧ (1 < c.toNat → refused 0x60 [c])))

/-- What a read transfer returns (R173, R174): the response of the buffer when the card is RUNNING, else NOT_READY, which is also what an empty buffer
returns, and then 0xFF for each further byte read; while the supply is held the port sends nothing. A waiting command is taken from the queue by
an idle step (the model's choice, log 4). In start-up (R174, R187) any command but RESTART empties both buffers and is discarded with no response; RESTART adds COMMAND to the cause record
and its OK response is placed; while the supply is held nothing is taken. -/
def Obligations.ReadTransferAndStartUpCommands : Prop :=
  (∀ s : State,
    (∀ r, s.restart.startUp = .running → s.maint.response = some r →
      s.readTransfer = toByte r.status.code :: toByte r.payload.length :: r.payload) ∧
    (s.restart.startUp = .running → s.maint.response = none → s.readTransfer = [0x0F#8]) ∧
    (s.restart.startUp = .settling ∨ s.restart.startUp = .restarting → s.readTransfer = [0x0F#8]) ∧
    (s.restart.startUp = .supplyHeld → s.readTransfer = [] ∧ ∀ n, s.readBytes n = []) ∧
    (s.restart.startUp ≠ .supplyHeld → ∀ n, (s.readBytes n).length = n ∧
      ∀ i, i < n → (s.readBytes n)[i]? = some (s.readTransfer[i]?.getD 0xFF#8)) ∧
    (∀ bytes c, s.restart.startUp = .running → s.pending = [] → s.maint.waiting = some bytes → parseCommand bytes = some c →
      ∃ t, step s = .next t ∧ c ∈ t.pending)) ∧
  (∀ (s : State) (c : Instr), (commandParts c).isSome = true →
    (s.restart.startUp = .settling ∨ s.restart.startUp = .restarting →
      (c ≠ .restart → exec c s = .next { s with maint := { s.maint with waiting := none, response := none } }) ∧
      exec .restart s = .next
        { s with restart := { s.restart with causes := { s.restart.causes with command := true } },
                 maint := { s.maint with waiting := none, response := some { status := .ok, payload := [] } } }) ∧
    (s.restart.startUp = .supplyHeld → exec c s = .next s))

/-- The reading commands at a RUNNING card (R35, R69, R86, R139, R152, R177, R178): OK with the payload of what they read, BAD_VALUE for an entry,
loop, port or slot number out of range; nothing but the response buffer changes. The payloads themselves are ReadPayloads. -/
def Obligations.ReadCommandsAnswered : Prop :=
  ∀ s : State, s.restart.startUp = .running →
    let answered := fun c payload => exec c s =
      .next { s with maint := { s.maint with waiting := none, response := some { status := .ok, payload := payload } } }
    let refused := fun c => exec c s =
      .next { s with maint := { s.maint with waiting := none, response := some { status := .badValue, payload := [] } } }
    answered .identify s.identifyBytes ∧ answered .readReferences s.station.bytes ∧ answered .readAttention s.maint.attention.bytes ∧
    answered (.readGrant none) s.sweepBytes ∧
    (∀ i : EntryIx, answered (.readPlan i.val) (planBytes (rd s.plan i) s.station.rate ++ loopList (s.loopsOnEntry i))) ∧
    (∀ k : LoopIx, answered (.readLoop k.val) (s.loopBytes k)) ∧ (∀ p : PortIx, answered (.readPort p.val) (s.portBytes p)) ∧
    (∀ p : PortIx, answered (.readGrant (some p.val)) (s.grantBytes p)) ∧
    (∀ slot : SlotIx, answered (.readNotices (slot.val + 1)) (s.noticesBytes slot)) ∧
    (∀ n, 32 ≤ n → refused (.readPlan n)) ∧ (∀ n, 6 ≤ n → refused (.readLoop n)) ∧ (∀ n, 24 ≤ n → refused (.readPort n)) ∧
    (∀ n, 24 ≤ n → refused (.readGrant (some n))) ∧ (∀ n, n = 0 ∨ 12 < n → refused (.readNotices n))

/-- Payloads of the reading commands (R175, R177, R178; R35, R69, R86, R139, R152, R188), field by field: the plan entry, the loop, the port and
its line frequency, the references with the selector, the grant and the sweep, the attention latch, the notice records and the cause record. A
frequency that four bytes do not hold, and IDENTIFY's revision, are free (log 8, 9). The order and the codes where the rules leave them open, among
them READ_PLAN of an EMPTY entry, the two bytes of the pre-divider, ALERT, ATTN and the continuity jumper, are the model's choice (log 23). -/
def Obligations.ReadPayloads : Prop :=
  (∀ x : Int, errorBytes (some (.ppm x)) = be16 (max (-32767) (min 32767 x) % 65536).toNat) ∧
  errorBytes (some .noActivity) = [0x80#8, 0x00#8] ∧ errorBytes none = [0xFF#8, 0xFF#8] ∧
  (∀ hz, (hertzBytes hz).length = 4 ∧ (hz < 4294967296 → hertzBytes hz = be32 hz)) ∧
  (∀ rate, planBytes none rate =
    [0x00#8] ++ List.replicate 7 0xFF#8 ++ List.replicate 6 0x00#8 ++ [0xFF#8] ++ List.replicate 4 0x00#8) ∧
  (∀ (s : State),
    let bit : Bool → Byte := fun b => if b then 0x01#8 else 0x00#8
    let byte : Option Nat → Byte := fun n => match n with
      | some n => toByte n
      | none => 0xFF#8
    let time : Option Nat → List Byte := fun n => match n with
      | some n => be32 n
      | none => List.replicate 4 0xFF#8
    let refCode : Ref → Nat := fun r => List.idxOf r [.xo, .refa, .refb]
    let hertz : PlanEntry → List Byte := fun e =>
      let den := if e.r = 0 then 1 else e.r
      let num := s.station.rate * (if e.n = 0 then 1 else e.n) * 2 ^ e.p
      hertzBytes (num / den) ++ [bit (num % den == 0)]
    let mode : LockMode → Nat := fun m => match m with
      | .auto => 0
      | .timed _ => 1
    s.identifyBytes.length = 16 ∧ s.identifyBytes.take 5 = [0x43#8, 0x53#8, 0x36#8, 0x31#8, 0x32#8] ∧
    s.identifyBytes.drop 6 = [toByte s.restart.jumpers.address.val, bit s.restart.jumpers.continuity,
      toByte (List.idxOf s.restart.jumpers.qualification [.long, .short]), bit s.restart.continuity, bit s.maint.hold,
      bit s.maint.allowAcks, toByte ((s.station.station.map refCode).getD 3), toByte (allPorts.countP (fun p => (s.grantAt p).isSome)),
      toByte (allLoops.countP (fun k => (s.loop k).state != .idle)), toByte (allLoops.countP (fun k => (s.loop k).failed.isSome))] ∧
    (∀ e : PlanEntry, planBytes (some e) s.station.rate =
      [toByte (1 + List.idxOf e.status [.valid, .outOfBand, .disabled]), toByte e.r] ++ be16 e.n ++
      [toByte e.p, toByte e.e, toByte e.l, toByte (mode e.mode)] ++
      be16 (match e.mode with
        | .auto => 0
        | .timed settle => settle) ++ hertz e ++ be32 (e.l * 2 ^ e.e * 1000000)) ∧
    (∀ k, let l := s.loop k
      s.loopBytes k =
        [toByte (List.idxOf l.state [.idle, .waiting, .acquiring, .tracking, .locked, .holdover]), bit l.failed.isSome,
         byte (l.failed.map (fun c => List.idxOf c [.acquireTimeout, .holdoverExpired])), byte (l.run.map (fun r => r.entry.val)),
         byte (l.run.map (fun r => mode r.mode))] ++
        (match l.run.bind (fun r => rd s.plan r.entry) with
         | some e => hertz e
         | none => be32 0 ++ [0xFF#8]) ++
        [toByte l.good] ++ errorBytes l.lastError ++ [byte (l.timer.map (fun t => List.idxOf t.kind [.acquire, .settle, .holdover]))] ++
        time (l.timer.map LoopTimer.remaining) ++ [match l.timer with
          | some _ => bit (l.state == .waiting)
          | none => 0xFF#8] ++
        listBytes ((s.list k).map (fun b =>
          [toByte b.handle.port.val, toByte b.handle.gen.val, toByte b.d, toByte (List.idxOf b.role [.current, .retuneTarget])])) ++
        be16 s.loops.acquireLimit ++ be16 s.loops.holdoverLimit) ∧
    (let one : RefRec → List Byte := fun r =>
       [bit r.enabled] ++ be32 r.nominal ++ be16 (r.preDivider.getD 0) ++
       [toByte (List.idxOf r.state [.disabled, .misfit, .absent, .outOfRange, .qualifying, .qualified])] ++ time r.qualTimer ++ errorBytes r.lastError
     s.station.bytes = one (s.station.ref .xo) ++ one (s.station.ref .refa) ++ one (s.station.ref .refb) ++ be32 s.station.rate ++
       [toByte (List.idxOf s.station.period [.long, .short])] ++ s.station.selectorBytes ∧
     s.station.selectorBytes = [toByte ((s.station.station.map refCode).getD 3)] ++
       listBytes (s.station.priority.map (fun r => [toByte (refCode r)])) ++
       [toByte (List.idxOf s.station.mode [.revertive, .nonrevertive])] ++ be16 s.station.restoreDelay ++
       [byte (s.station.restore.map (fun r => refCode r.candidate))] ++ time (s.station.restore.map Restore.remaining)) ∧
    (∀ p, let r := rd s.switch.ports p
      let source : Source → List Byte := fun x => match x with
        | .none => [0x00#8, 0xFF#8, 0x00#8, 0x00#8, 0x00#8, 0x00#8]
        | .loop k d none => [0x01#8, toByte k.val, toByte d, 0x00#8, 0x00#8, 0x00#8]
        | .loop k d (some g) => [0x01#8, toByte k.val, toByte d, toByte (g.val + 1), 0x00#8, 0x00#8]
        | .fallback fd => [0x02#8, 0xFF#8, 0x00#8, 0x00#8] ++ be16 fd
      let silent := silentSource s.loops.loops s.station.station r.current
      let aligned : Option GroupIx := match r.current.group with
        | some g => some g
        | none => r.switching.bind (fun sw => sw.target.group)
      s.portBytes p =
        [toByte p.val, if r.switching.isSome then 0x02#8 else if r.current = .none then 0x00#8 else 0x01#8] ++ source r.current ++
        (match r.switching with
         | some sw => source sw.target ++ [bit sw.stasis, match sw.target with
           | .loop _ _ _ => bit sw.lost
           | _ => 0xFF#8]
         | none => [0xFF#8, 0xFF#8, 0x00#8, 0x00#8, 0x00#8, 0x00#8, 0xFF#8, 0xFF#8]) ++
        [bit silent] ++ hertzBytes (s.lineHertz p) ++
        (match aligned.bind (fun g => rd s.switch.dividers g) with
         | some dv => [toByte dv.loop.val] ++ be16 dv.value ++ be16 (dv.pendingValue.getD 0)
         | none => [0xFF#8, 0x00#8, 0x00#8, 0x00#8, 0x00#8]) ++
        (match s.grantAt p with
         | some g => [toByte p.val, toByte g.gen.val]
         | none => [0xFF#8, 0xFF#8]) ∧
      (s.portBytes p).length = 28 ∧
      (r.current = .none ∨ silent = true ∨ (∃ sw, r.switching = some sw ∧ sw.stasis = true) → s.lineHertz p = 0) ∧
      (silent = false → (∀ sw, r.switching = some sw → sw.stasis = false) →
        (∀ fd, r.current = .fallback fd → s.lineHertz p = s.station.rate / fd) ∧
        (∀ k d g run e, r.current = .loop k d g → (s.loop k).run = some run → rd s.plan run.entry = some e →
          s.lineHertz p = s.station.rate * (if e.n = 0 then 1 else e.n) * 2 ^ e.p / ((if e.r = 0 then 1 else e.r) * d)))) ∧
    (∀ p, (s.grantAt p = none → s.grantBytes p = [toByte (rd s.engine.generations p).val, 0x00#8]) ∧
      (∀ g, s.grantAt p = some g →
        let h : Handle := { port := p, gen := g.gen }
        ∃ bs : List (LoopIx × Nat × Binding),
          s.grantBytes p = [toByte (rd s.engine.generations p).val, 0x01#8] ++ g.entryBytes p ++ [bit g.mark] ++
            (match g.retune with
             | none => List.replicate 5 0xFF#8
             | some (.sameLoop d _ _) => [toByte d] ++ List.replicate 4 0xFF#8
             | some (.newLoop t _ _ cut) =>
               [0xFF#8, toByte t.loop.val, toByte t.entry.val, toByte t.d, if cut = .awaitingLock then 0x00#8 else 0x01#8]) ++
            listBytes (bs.map (fun x => [toByte x.1.val, if x.2.2.role = .current then 0x00#8 else 0x01#8, toByte x.2.1, toByte x.2.2.d])) ∧
          (s.grantBytes p).length = 38 + 4 * bs.length ∧
          bs.length = (allLoops.map (fun k => (s.list k).countP (fun b => b.handle == h))).sum ∧
          (∀ x, x ∈ bs ↔ 1 ≤ x.2.1 ∧ (s.list x.1)[x.2.1 - 1]? = some x.2.2 ∧ x.2.2.handle = h) ∧
          bs.Pairwise (fun x y => ¬ (x.2.2.role = .retuneTarget ∧ y.2.2.role = .current)))) ∧
    s.sweepBytes = listBytes (allPorts.filterMap (fun p => (s.grantAt p).map (fun g =>
      [toByte p.val, toByte g.gen.val, toByte (List.idxOf g.state [.pending, .active, .degraded, .stranded])]))) ∧
    (let a := s.maint.attention
     a.bytes = [byte (a.latched.map (fun c => c.index.val)), bit a.latched.isSome] ++
       ([Cause.stationNone, .loopFailed, .grantStranded, .stationSwitched, .referenceQualified].map (fun c =>
         [bit (decide (0 < rd a.counts c.index)), toByte (rd a.counts c.index)])).flatten ∧ a.bytes.length = 12) ∧
    (∀ slot, let own := rd s.notices.slots slot
      let kind : Notice → List Byte := fun n => [bit n.pending, toByte n.seq.val]
      let line : PortIx → List Byte := fun p => ((List.finRange 9).map (fun i => kind (rd (rd s.notices.ports p).kinds i))).flatten
      let retired : PortIx → List Byte := fun p => match (rd s.notices.ports p).retired with
        | some r => [if r.reason = .leaseExpired then 0x01#8 else 0x02#8, toByte r.gen.val]
        | none => [0x00#8, 0xFF#8]
      s.noticesBytes slot = kind own.restarted ++ kind own.continued ++ line (portOf slot .a) ++ line (portOf slot .b) ++
        retired (portOf slot .a) ++ retired (portOf slot .b) ++ [bit (s.attn slot)] ∧ (s.noticesBytes slot).length = 45) ∧
    (let c := s.restart.causes
     c.bytes = listBytes ([(c.power, 0x00#8), (c.supply, 0x01#8), (c.panel, 0x02#8), (c.command, 0x03#8), (c.chassis, 0x04#8),
       (c.continued, 0x05#8)].filterMap (fun m => if m.1 then some [m.2] else none))))

/-! ### References and the station selector -/

/-- A change at the monitors taken by the selector (R130, R132 to R135): the station reference is kept while it is QUALIFIED, and is otherwise the
highest-priority QUALIFIED reference, or NONE; the restore candidate is evaluated again, its timer counting on for the same candidate and starting at
the full delay for another; the loops and the ports see the change in the same action; REFERENCE_QUALIFIED, STATION_SWITCHED and STATION_NONE are
counted, a count staying at 255; an empty latch is filled with the most urgent pending cause. Nothing else changes. -/
def Obligations.SelectorTakesChange : Prop :=
  ∀ (s : State) (after : StationBlock),
    let t := s.monitorsChange after
    let qualified : Ref → Bool := fun r => (after.ref r).state == .qualified
    let entered := [Ref.xo, .refa, .refb].countP (fun r => qualified r && (s.station.ref r).state != .qualified)
    let raises : Cause → Nat := fun c =>
      if c = .referenceQualified then entered
      else if c = .stationSwitched then (if t.station.station ≠ after.station ∧ t.station.station.isSome = true then 1 else 0)
      else if c = .stationNone then (if t.station.station ≠ after.station ∧ t.station.station = none then 1 else 0)
      else 0
    (∀ r, after.station = some r → qualified r = true → t.station.station = some r) ∧
    (after.station = none ∨ (∃ r, after.station = some r ∧ qualified r = false) → t.station.station = after.priority.find? qualified) ∧
    (after.mode = .nonrevertive ∨ t.station.station = none → t.station.restore = none) ∧
    (∀ a, after.mode = .revertive → t.station.station = some a →
      let candidate := (after.priority.takeWhile (fun r => r != a)).find? qualified
      (candidate = none → t.station.restore = none) ∧
      (∀ c, candidate = some c →
        (∀ r, after.restore = some r → r.candidate = c → t.station.restore = some r) ∧
        ((∀ r, after.restore = some r → r.candidate ≠ c) →
          t.station.restore = some { candidate := c, remaining := after.restoreDelay * 1000 }))) ∧
    t.station = { after with station := t.station.station, restore := t.station.restore } ∧
    (t.station.station = after.station → t.loops = s.loops ∧ t.switch = s.switch) ∧
    (∀ c, stationChange after.station t.station.station = some c →
      t.loops = s.loops.stationChanged c ∧
      (∀ p, let r := rd s.switch.ports p
        let back := silentSource s.loops.loops after.station r.current && !silentSource t.loops.loops t.station.station r.current
        let r' := if back && !r.inStasis then { r with count := 0, origin := .begun s.switch.starts } else r
        rd t.switch.ports p = (r'.advance t.loops.loops t.station.station).1 ∧
        rd t.switch.reports p = rd s.switch.reports p ++ (r'.advance t.loops.loops t.station.station).2) ∧
      t.switch.dividers = s.switch.dividers ∧ t.switch.draws = s.switch.draws ∧ t.switch.sameMoment = s.switch.sameMoment ∧
      t.switch.starts = s.switch.starts + 1) ∧
    (∀ c : Cause, rd t.maint.attention.counts c.index =
      if raises c = 0 then rd s.maint.attention.counts c.index else min 255 (rd s.maint.attention.counts c.index + raises c)) ∧
    (∀ c, s.maint.attention.latched = some c → t.maint.attention.latched = some c) ∧
    (s.maint.attention.latched = none → t.maint.attention.latched =
      [Cause.stationNone, .loopFailed, .grantStranded, .stationSwitched, .referenceQualified].find?
        (fun c => decide (0 < rd t.maint.attention.counts c.index))) ∧
    t = { s with station := t.station, loops := t.loops, switch := t.switch,
                 maint := { s.maint with attention := t.maint.attention } }

/-- The station reference at one loop. A loop that takes an entry (R46, R48) is ACQUIRING with a station reference and WAITING without one,
unquarantined, count 0, no last error, its timer at full value, the acquire timer for an AUTO entry and the settle timer for a TIMED one. At a
change (R59, R61 to R64): at a switch a TRACKING loop counts its good windows afresh. At a loss a LOCKED loop enters HOLDOVER with a full
holdover timer and raises holdover entered, an ACQUIRING or TRACKING loop goes to WAITING with its timer paused, and a loop still in HOLDOVER
starts its timer at full again. At a return a WAITING loop goes to ACQUIRING with the timer it held, and a loop in HOLDOVER loses its holdover
timer, a TIMED one going back to LOCKED at once with holdover ended. Every other loop is as it was and raises nothing. -/
def Obligations.LoopAtStationReference : Prop :=
  (∀ (limit : Nat) (station : Option Ref) (i : EntryIx) (settle : Nat),
    let state : LoopState := if station = none then .waiting else .acquiring
    LoopRec.started limit station i .auto =
      { state := state, failed := none, run := some { entry := i, mode := .auto }, good := 0, lastError := none,
        timer := some { kind := .acquire, remaining := limit } } ∧
    LoopRec.started limit station i (.timed settle) =
      { state := state, failed := none, run := some { entry := i, mode := .timed settle }, good := 0, lastError := none,
        timer := some { kind := .settle, remaining := settle } }) ∧
  (∀ old new : Ref, old ≠ new → stationChange (some old) (some new) = some .switched) ∧
  (∀ r : Ref, stationChange (some r) none = some .lost ∧ stationChange none (some r) = some .returned ∧
    stationChange (some r) (some r) = none ∧ stationChange none none = none) ∧
  (∀ (u : LoopController) (c : StationChange) (k : LoopIx),
    rd (u.stationChanged c).loops k = ((rd u.loops k).stationChanged u.holdoverLimit c).1 ∧
    rd (u.stationChanged c).events k = rd u.events k ++ ((rd u.loops k).stationChanged u.holdoverLimit c).2 ∧
    (u.stationChanged c).acquireLimit = u.acquireLimit ∧ (u.stationChanged c).holdoverLimit = u.holdoverLimit) ∧
  (∀ (l : LoopRec) (limit : Nat),
    let full : LoopTimer := { kind := .holdover, remaining := limit * 1000 }
    (l.state = .tracking → l.stationChanged limit .switched = ({ l with good := 0 }, [])) ∧
    (l.state ≠ .tracking → l.stationChanged limit .switched = (l, [])) ∧
    (l.state = .locked → l.stationChanged limit .lost =
      ({ l with state := .holdover, timer := some full }, [{ kind := .holdoverEntered, state := .holdover }])) ∧
    (l.state = .acquiring ∨ l.state = .tracking → l.stationChanged limit .lost = ({ l with state := .waiting, good := 0 }, [])) ∧
    (l.state = .holdover → l.stationChanged limit .lost = ({ l with timer := some full }, [])) ∧
    (l.state = .idle ∨ l.state = .waiting → l.stationChanged limit .lost = (l, [])) ∧
    (l.state = .waiting → l.stationChanged limit .returned = ({ l with state := .acquiring, good := 0 }, [])) ∧
    (l.state = .holdover → (∀ t, l.run.map Run.mode = some (.timed t) → l.stationChanged limit .returned =
        ({ l with state := .locked, timer := none }, [{ kind := .holdoverEnded, state := .locked }])) ∧
      (l.run.map Run.mode = some .auto → l.stationChanged limit .returned = ({ l with timer := none }, []))) ∧
    (l.state ≠ .waiting → l.state ≠ .holdover → l.stationChanged limit .returned = (l, [])))

/-- The monitors' events at a RUNNING card (R128 to R130) and the restore timer's (R134). A window of REFA or REFB in a judged state sets the
last error and is judged by Table 7-4; XO, a DISABLED and a MISFIT reference complete none. The expiry of a qualification timer, outside
inspection hold, makes the reference QUALIFIED. Each is a change that SelectorTakesChange describes. The expiry of the restore timer makes the
candidate the station reference. -/
def Obligations.MonitorEvents : Prop :=
  ∀ (s : State) (ref : Ref), s.restart.startUp = .running →
    let r := s.station.ref ref
    let changed : RefRec → Outcome := fun x => .next (s.monitorsChange { s.station with refs := wr s.station.refs (refIx ref) x })
    let judged := r.state = .absent ∨ r.state = .outOfRange ∨ r.state = .qualifying ∨ r.state = .qualified
    let ms := if s.station.period = .long then 1000 else 100
    (ref = .xo ∨ ¬ judged → ∀ e, exec (.referenceWindow ref e) s = .next s) ∧
    (ref ≠ .xo → judged →
      exec (.referenceWindow ref .noActivity) s = changed { r with lastError := some .noActivity, state := .absent, qualTimer := none } ∧
      (∀ x : Int, 100 < x.natAbs →
        exec (.referenceWindow ref (.ppm x)) s = changed { r with lastError := some (.ppm x), state := .outOfRange, qualTimer := none }) ∧
      (∀ x : Int, x.natAbs ≤ 100 →
        (r.state = .absent ∨ r.state = .outOfRange → exec (.referenceWindow ref (.ppm x)) s =
          changed { r with lastError := some (.ppm x), state := .qualifying, qualTimer := some ms }) ∧
        (r.state = .qualifying ∨ r.state = .qualified →
          exec (.referenceWindow ref (.ppm x)) s = changed { r with lastError := some (.ppm x) }))) ∧
    (r.state = .qualifying → r.qualTimer = some 0 → s.maint.hold = false →
      exec (.qualificationTimerExpiry ref) s = changed { r with state := .qualified, qualTimer := none }) ∧
    (r.state ≠ .qualifying ∨ r.qualTimer ≠ some 0 ∨ s.maint.hold = true → exec (.qualificationTimerExpiry ref) s = .next s) ∧
    (∀ c, s.station.restore = some { candidate := c, remaining := 0 } → s.maint.hold = false →
      exec .restoreTimerExpiry s = .next (((s.changeStation (some c)).evaluateRestore).fillLatch) ∧
      ((s.changeStation (some c)).evaluateRestore).fillLatch.station.station = some c) ∧
    (s.station.restore = none ∨ (∃ r, s.station.restore = some r ∧ r.remaining ≠ 0) ∨ s.maint.hold = true →
      exec .restoreTimerExpiry s = .next s)

/-- SET_STATION at a RUNNING card (R37, R38, R138): BAD_VALUE outside 1,000 to 10,000,000 Hz; IN_USE with the running loops in loop number order; else
the plan is judged again at the new rate, DISABLED and EMPTY entries as they were and no field changed, every reference is judged afresh by R127, and
the selector takes the change. -/
def Obligations.StationRateSet : Prop :=
  ∀ (s : State) (rate : Nat), s.restart.startUp = .running →
    let answered : State → MaintStatus → List Byte → Outcome := fun t st payload =>
      .next { t with maint := { t.maint with waiting := none, response := some { status := st, payload := payload } } }
    let running := allLoops.filter (fun k => (s.loop k).state != .idle)
    let plan := mapCells (fun _ e => Option.map (fun e : PlanEntry =>
      if e.status = .disabled then e else { e with status := e.derivedStatus rate }) e) s.plan
    let afresh : Ref → RefRec → RefRec := fun ref r =>
      if r.enabled = false then { r with preDivider := none, state := .disabled, qualTimer := none, lastError := none }
      else if r.nominal % rate = 0 ∧ 1 ≤ r.nominal / rate ∧ r.nominal / rate ≤ 65535 then
        { r with preDivider := some (r.nominal / rate), state := if ref = .xo then .qualified else .absent, qualTimer := none, lastError := none }
      else { r with preDivider := none, state := .misfit, qualTimer := none, lastError := none }
    (rate < 1000 ∨ 10000000 < rate → exec (.setStation rate) s = answered s .badValue []) ∧
    (1000 ≤ rate → rate ≤ 10000000 → running ≠ [] →
      exec (.setStation rate) s = answered s .inUse (listBytes (running.map (fun k => [toByte k.val])))) ∧
    (1000 ≤ rate → rate ≤ 10000000 → running = [] →
      exec (.setStation rate) s = answered (State.monitorsChange { s with plan := plan }
        { s.station with
          rate := rate,
          refs := #v[afresh .xo (s.station.ref .xo), afresh .refa (s.station.ref .refa), afresh .refb (s.station.ref .refb)] }) .ok [])

/-- SET_REFERENCE at a RUNNING card (R127, R137), in the order of its checks: BAD_VALUE for a nominal out of range, ACTIVE_REFERENCE for another
nominal of the station reference, OK with nothing changed for what the record holds, and otherwise the values taken and the judgement restarted,
the selector acting in the same action. The payload of the answer to an unchanged record is empty (log 23). -/
def Obligations.ReferenceSet : Prop :=
  ∀ (s : State) (ref : Ref) (nominal : Nat) (enabled : Bool), s.restart.startUp = .running →
    let answered : State → MaintStatus → List Byte → Outcome := fun t st payload =>
      .next { t with maint := { t.maint with waiting := none, response := some { status := st, payload := payload } } }
    let r := s.station.ref ref
    let inRange := if ref = .xo then nominal = 40000000 else 1000 ≤ nominal ∧ nominal ≤ 100000000
    let rate := s.station.rate
    let x : RefRec :=
      if enabled = false then { enabled := false, nominal := nominal, preDivider := none, state := .disabled, qualTimer := none, lastError := none }
      else if nominal % rate = 0 ∧ 1 ≤ nominal / rate ∧ nominal / rate ≤ 65535 then
        { enabled := true, nominal := nominal, preDivider := some (nominal / rate), state := if ref = .xo then .qualified else .absent,
          qualTimer := none, lastError := none }
      else { enabled := true, nominal := nominal, preDivider := none, state := .misfit, qualTimer := none, lastError := none }
    let asked := exec (.setReference ref nominal enabled) s
    (¬ inRange → asked = answered s .badValue []) ∧
    (inRange → s.station.station = some ref → nominal ≠ r.nominal → asked = answered s .activeReference []) ∧
    (inRange → nominal = r.nominal → enabled = r.enabled → asked = answered s .ok []) ∧
    (inRange → s.station.station ≠ some ref ∨ nominal = r.nominal → nominal ≠ r.nominal ∨ enabled ≠ r.enabled →
      asked = answered (s.monitorsChange { s.station with refs := wr s.station.refs (refIx ref) x }) .ok [toByte x.state.code])

/-- SET_PRIORITY and SET_QUALIFY at a RUNNING card (R131, R134, R136): BAD_VALUE with nothing changed for a list that does not name each
reference once or a delay outside 1 to 600 s; else list, mode and delay are taken, the station reference kept and the candidate evaluated against
them; the qualification period is set and no timer or state changes. The order and the codes of the two OK payloads are the model's choice
(log 23). -/
def Obligations.SelectorSettings : Prop :=
  ∀ (s : State) (a b c : Ref) (mode : SelMode) (delay : Nat) (period : QualPeriod), s.restart.startUp = .running →
    let answered : State → MaintStatus → List Byte → Outcome := fun t st payload =>
      .next { t with maint := { t.maint with waiting := none, response := some { status := st, payload := payload } } }
    let named := a ≠ b ∧ b ≠ c ∧ a ≠ c
    (¬ named ∨ delay < 1 ∨ 600 < delay → exec (.setPriority a b c mode delay) s = answered s .badValue []) ∧
    (named → 1 ≤ delay → delay ≤ 600 →
      ∃ restore, let block : StationBlock := { s.station with priority := [a, b, c], mode := mode, restoreDelay := delay, restore := restore }
        exec (.setPriority a b c mode delay) s = answered { s with station := block } .ok block.selectorBytes ∧
        (mode = .nonrevertive ∨ s.station.station = none → restore = none) ∧
        (∀ x, mode = .revertive → s.station.station = some x →
          let candidate := ([a, b, c].takeWhile (fun r => r != x)).find? (fun r => (s.station.ref r).state == .qualified)
          (candidate = none → restore = none) ∧
          (∀ y, candidate = some y →
            (∀ r, s.station.restore = some r → r.candidate = y → restore = some r) ∧
            ((∀ r, s.station.restore = some r → r.candidate ≠ y) → restore = some { candidate := y, remaining := delay * 1000 })))) ∧
    exec (.setQualify period) s = answered { s with station := { s.station with period := period } } .ok [toByte period.code]

/-! ### The rate plan -/

/-- The derived status of an entry that is not EMPTY (R31, with R′ and N′ by R28): DISABLED when L is 0; else VALID exactly when the three conditions
hold, and OUT_OF_BAND when one fails. An entry that is not VALID serves no target. -/
def Obligations.PlanEntryStatusDerived : Prop :=
  ∀ (e : PlanEntry) (rate : Nat),
    let r' : Int := if e.r = 0 then 1 else e.r
    let n' : Int := if e.n = 0 then 1 else e.n
    let num : Int := rate * n' * 2 ^ e.p
    let centre : Int := e.l * 2 ^ e.e * 1000000 * r'
    let inBand := 16000000 * r' ≤ num ∧ num ≤ 1000000000 * r' ∧ |num - centre| ≤ 2 ^ e.e * 500000 * r'
    (e.l = 0 → e.derivedStatus rate = .disabled) ∧
    (e.l ≠ 0 → inBand → e.derivedStatus rate = .valid) ∧
    (e.l ≠ 0 → ¬ inBand → e.derivedStatus rate = .outOfBand) ∧
    (e.status ≠ .valid → ∀ f tol, e.matchTarget rate f tol = none)

/-- The match test, the entry match query and the plan searches (R39 to R41). An entry satisfies a target with a divider when it is VALID and both
conditions hold; the query answers the smallest divider in 1 to 64 with which it does; an EMPTY entry answers none; the first search answers the
lowest-numbered entry that answers a divider, and the second whether any does. -/
def Obligations.MatchQueryAndSearches : Prop :=
  (∀ (e : PlanEntry) (rate f tol d : Nat),
    let r' : Int := if e.r = 0 then 1 else e.r
    let n' : Int := if e.n = 0 then 1 else e.n
    let num : Int := rate * n' * 2 ^ e.p
    e.satisfies rate f tol d = true ↔
      e.status = .valid ∧ |num - f * d * r'| * 1000000 ≤ tol * f * d * r' ∧ num ≤ 250000000 * d * r') ∧
  (∀ (plan : Vector (Option PlanEntry) 32) (rate f tol : Nat) (i : EntryIx),
    (rd plan i = none → matchEntry plan rate i f tol = none) ∧
    (∀ e d, rd plan i = some e → (matchEntry plan rate i f tol = some d ↔
      1 ≤ d ∧ d ≤ 64 ∧ e.satisfies rate f tol d = true ∧ ∀ c, 1 ≤ c → c < d → e.satisfies rate f tol c = false)) ∧
    (∀ d, findEntry plan rate f tol = some (i, d) ↔
      matchEntry plan rate i f tol = some d ∧ ∀ j < i, matchEntry plan rate j f tol = none) ∧
    (anyEntrySatisfies plan rate f tol = true ↔ ∃ j e d, rd plan j = some e ∧ 1 ≤ d ∧ d ≤ 64 ∧ e.satisfies rate f tol d = true))

/-- WRITE_PLAN and ERASE_PLAN at a RUNNING card (R33, R34), in the order of their checks: BAD_VALUE for an entry number or a field out of range,
IN_USE with the loops running on the entry in loop number order, and otherwise the entry written with its status derived at the present station rate,
or erased, with OK. The byte that codes the status in WRITE_PLAN's answer is the model's choice (log 23). -/
def Obligations.PlanWrittenAndErased : Prop :=
  ∀ (s : State) (a : PlanArgs), s.restart.startUp = .running →
    let answered : State → MaintStatus → List Byte → Outcome := fun t st payload =>
      .next { t with maint := { t.maint with waiting := none, response := some { status := st, payload := payload } } }
    let inRange := a.r ≤ 16 ∧ a.n ≤ 4095 ∧ a.p ≤ 3 ∧ a.e ≤ 2 ∧ a.l ≤ 255 ∧ (if a.timed then 1 ≤ a.settle ∧ a.settle ≤ 1000 else a.settle = 0)
    let mode : LockMode := if a.timed then .timed a.settle else .auto
    let fields : PlanStatus → PlanEntry := fun st => { r := a.r, n := a.n, p := a.p, e := a.e, l := a.l, mode := mode, status := st }
    let written := fields ((fields .disabled).derivedStatus s.station.rate)
    let users := fun i : EntryIx => allLoops.filter (fun k => (s.loop k).state != .idle && (s.loop k).run.map Run.entry == some i)
    (32 ≤ a.entry ∨ ¬ inRange → exec (.writePlan a) s = answered s .badValue []) ∧
    (32 ≤ a.entry → exec (.erasePlan a.entry) s = answered s .badValue []) ∧
    (∀ i : EntryIx, a.entry = i.val →
      (users i ≠ [] →
        (inRange → exec (.writePlan a) s = answered s .inUse (listBytes ((users i).map (fun k => [toByte k.val])))) ∧
        exec (.erasePlan a.entry) s = answered s .inUse (listBytes ((users i).map (fun k => [toByte k.val])))) ∧
      (users i = [] →
        (inRange → exec (.writePlan a) s =
          answered { s with plan := wr s.plan i (some written) } .ok [toByte (planStatusCode (some written))]) ∧
        exec (.erasePlan a.entry) s = answered { s with plan := wr s.plan i none } .ok []))

/-! ### Settings, attention and the cause record -/

/-- Commands that set one thing, at a RUNNING card: SET_LIMITS (R45), CLEAR_LOOP (R68), HOLD (R180), SET_CONTINUITY (R190), READ_CAUSE (R188) and
ACK_ATTENTION (R151). Running timers, stranded grants and jumper values are not touched. The payloads of the OK answers, where Tables 10-1 and
10-2 leave their order or codes open (the limits, the latched cause), are the model's choice (log 23). -/
def Obligations.SettingsTaken : Prop :=
  ∀ s : State, s.restart.startUp = .running →
    let answered : State → MaintStatus → List Byte → Outcome := fun t st payload =>
      .next { t with maint := { t.maint with waiting := none, response := some { status := st, payload := payload } } }
    let bit := fun b : Bool => if b then 0x01#8 else 0x00#8
    (∀ acquire holdover : Nat,
      (acquire < 10 ∨ 5000 < acquire ∨ holdover < 1 ∨ 3600 < holdover → exec (.setLimits acquire holdover) s = answered s .badValue []) ∧
      (10 ≤ acquire → acquire ≤ 5000 → 1 ≤ holdover → holdover ≤ 3600 → exec (.setLimits acquire holdover) s =
        answered { s with loops := { s.loops with acquireLimit := acquire, holdoverLimit := holdover } } .ok (be16 acquire ++ be16 holdover))) ∧
    (∀ n, 6 ≤ n → exec (.clearLoop n) s = answered s .badValue []) ∧
    (∀ k : LoopIx,
      ((s.loop k).failed = none → exec (.clearLoop k.val) s = answered s .notQuarantined []) ∧
      ((s.loop k).failed ≠ none → exec (.clearLoop k.val) s =
        answered { s with loops := { s.loops with loops := wr s.loops.loops k { s.loop k with failed := none } } } .ok [])) ∧
    (∀ allow : Bool,
      exec (.holdOn allow) s = answered { s with maint := { s.maint with hold := true, allowAcks := allow } } .ok [0x01#8, bit allow] ∧
      exec (.holdOff allow) s = answered { s with maint := { s.maint with hold := false, allowAcks := false } } .ok [0x00#8, 0x00#8]) ∧
    (∀ on : Bool, exec (.setContinuity on) s = answered { s with restart := { s.restart with continuity := on } } .ok [bit on]) ∧
    (let c := s.restart.causes
     let members := [(c.power, 0x00#8), (c.supply, 0x01#8), (c.panel, 0x02#8), (c.command, 0x03#8), (c.chassis, 0x04#8), (c.continued, 0x05#8)]
     let payload := listBytes (members.filterMap (fun m => if m.1 then some [m.2] else none))
     (s.maint.hold = true → exec .readCause s = answered s .ok payload) ∧
     (s.maint.hold = false → exec .readCause s = answered { s with restart := { s.restart with causes := {} } } .ok payload)) ∧
    (∀ c : Cause, ∃ latched,
      let counts := wr s.maint.attention.counts c.index 0
      let byte := match latched with
        | some l => toByte (Cause.index l).val
        | none => 0xFF#8
      (rd s.maint.attention.counts c.index = 0 → exec (.ackAttention c) s = answered s .ok [byte] ∧ latched = s.maint.attention.latched) ∧
      (rd s.maint.attention.counts c.index ≠ 0 →
        exec (.ackAttention c) s =
          answered { s with maint := { s.maint with attention := { counts := counts, latched := latched } } } .ok [byte] ∧
        (∀ l, s.maint.attention.latched = some l → l ≠ c → latched = some l) ∧
        (s.maint.attention.latched = some c → latched =
          [Cause.stationNone, .loopFailed, .grantStranded, .stationSwitched, .referenceQualified].find?
            (fun x => decide (0 < rd counts x.index)))))

/-! ### Start-up and restart -/

/-- Restart requests (R174, R186, R187, R189). At a RUNNING card the panel input, RESTART and, with continuity OFF, the chassis reset line each
add their cause and begin a module restart: grants, loops, ports, notices, attention, hold flags, links and buffers at rest, RESTARTING with 2
ms, the configuration kept; only RESTART leaves its OK response. In SETTLING and RESTARTING each is absorbed with its cause added, and a line
holds its request. With continuity ON a chassis reset of a RUNNING card resets the links, raises CONTINUED for the present slots and adds
CONTINUED, and has no effect in start-up. While the supply is held none is taken. A release lets go of the request, and ends a start-up that
waited for it alone. -/
def Obligations.RestartRequests : Prop :=
  ∀ s : State,
    let rested : Causes → Option Response → State := fun causes response =>
      { s with
        engine := GrantEngine.powerUp, notices := NoticeUnit.powerUp, links := fill 12 LinkRec.mute,
        loops := { LoopController.powerUp with acquireLimit := s.loops.acquireLimit, holdoverLimit := s.loops.holdoverLimit },
        switch := { SwitchUnit.powerUp with draws := s.switch.draws, starts := s.switch.starts },
        maint := { attention := Attention.powerUp, hold := false, allowAcks := false, waiting := none, response := response },
        restart := { s.restart with startUp := .restarting, settleTimer := none, restartTimer := some 2, causes := causes } }
    let held : State → Bool → Bool → State := fun t panel chassis => { t with restart := { t.restart with panelHeld := panel, chassisHeld := chassis } }
    let added : Causes → State := fun causes => { s with restart := { s.restart with causes := causes } }
    let c := s.restart.causes
    let starting := s.restart.startUp = .settling ∨ s.restart.startUp = .restarting
    (s.restart.startUp = .running →
      exec .restart s = .next (rested { c with command := true } (some { status := .ok, payload := [] })) ∧
      exec .panelRestart s = .next (held (rested { c with panel := true } none) true s.restart.chassisHeld) ∧
      (s.restart.continuity = false → exec .chassisReset s = .next (held (rested { c with chassis := true } none) s.restart.panelHeld true)) ∧
      (s.restart.continuity = true → exec .chassisReset s = .next
        { s with
          links := mapCells (fun slot _ => { LinkRec.mute with listening := rd s.present slot }) s.links,
          notices := { s.notices with slots := mapCells (fun slot n =>
            if rd s.present slot then { n with continued := { pending := true, seq := n.continued.seq + 1 } } else n) s.notices.slots },
          restart := { s.restart with causes := { c with continued := true } } })) ∧
    (starting →
      exec .panelRestart s = .next (held (added { c with panel := true }) true s.restart.chassisHeld) ∧
      (s.restart.continuity = false → exec .chassisReset s = .next (held (added { c with chassis := true }) s.restart.panelHeld true)) ∧
      (s.restart.continuity = true → exec .chassisReset s = .next s)) ∧
    (s.restart.startUp = .supplyHeld → exec .panelRestart s = .next s ∧ exec .panelRestartRelease s = .next s ∧
      exec .chassisReset s = .next s ∧ exec .chassisResetRelease s = .next s) ∧
    (s.restart.startUp ≠ .supplyHeld →
      (s.restart.startUp ≠ .restarting ∨ s.restart.restartTimer ≠ none ∨ s.restart.chassisHeld = true →
        exec .panelRestartRelease s = .next (held s false s.restart.chassisHeld)) ∧
      (s.restart.startUp ≠ .restarting ∨ s.restart.restartTimer ≠ none ∨ s.restart.panelHeld = true →
        exec .chassisResetRelease s = .next (held s s.restart.panelHeld false))) ∧
    (s.restart.startUp = .restarting → s.restart.restartTimer = none →
      (s.restart.chassisHeld = false → exec .panelRestartRelease s = .next (held s false false).endRestart) ∧
      (s.restart.panelHeld = false → exec .chassisResetRelease s = .next (held s false false).endRestart))

/-- The supply and the start-up timers (R140, R184 to R187). Supply applied, and recovery from SUPPLY_HELD, enter SETTLING with 8 ms, the jumpers
read and the cause record set; a trip enters SUPPLY_HELD from any state; both leave every port OFF, every link mute, ATTN and ALERT released (the
contents of the other blocks while their state is lost are the model's, log 20). That both let go of the held panel and chassis requests is
deduced (log 18), and so is that SUPPLY_APPLIED is taken in any state (log 19). The settle ends with the power-up values, RESTARTED for each
present slot and its link listening, RUNNING; with a request held it enters RESTARTING instead (a response is kept, log 21). The restart ends
with every reference judged afresh, XO or NONE taken with no cause raised, RESTARTED and the links as before; with a request held the timer is
removed and the card waits. -/
def Obligations.StartUpEvents : Prop :=
  (∀ (s : State) (j : Jumpers),
    let settling : Causes → RestartLogic := fun causes =>
      { startUp := .settling, settleTimer := some 8, restartTimer := none, jumpers := j, continuity := j.continuity, causes := causes,
        panelHeld := false, chassisHeld := false }
    let closed : State → Prop := fun t =>
      t.links = fill 12 LinkRec.mute ∧ (∀ p, rd t.switch.ports p = PortRec.off) ∧ (∀ slot, t.attn slot = false) ∧ t.alert = false ∧
      t.engine = GrantEngine.powerUp ∧ t.loops = LoopController.powerUp ∧ t.plan = fill 32 none ∧ t.maint = MaintPort.powerUp ∧
      t.notices = NoticeUnit.powerUp ∧ t.present = s.present ∧ t.pending = s.pending
    (∃ t, exec (.supplyApplied j) s = .next t ∧ t.restart = settling { power := true } ∧ closed t) ∧
    (∃ t, exec .supplyTrip s = .next t ∧ closed t ∧
      t.restart = { s.restart with startUp := .supplyHeld, settleTimer := none, restartTimer := none, causes := {},
                                   panelHeld := false, chassisHeld := false }) ∧
    (s.restart.startUp = .supplyHeld → ∃ t, exec (.supplyRecovery j) s = .next t ∧ t.restart = settling { supply := true } ∧ closed t) ∧
    (s.restart.startUp ≠ .supplyHeld → exec (.supplyRecovery j) s = .next s)) ∧
  (∀ s : State,
    let told : NoticeUnit → NoticeUnit := fun u =>
      { u with slots := mapCells (fun slot n =>
          if rd s.present slot then { n with restarted := { pending := true, seq := n.restarted.seq + 1 } } else n) u.slots }
    let links := mapCells (fun slot _ => { LinkRec.mute with listening := rd s.present slot }) s.links
    let held := s.restart.panelHeld || s.restart.chassisHeld
    let fresh : State :=
      { s with
        station := StationBlock.powerUp s.restart.jumpers.qualification, plan := fill 32 none, loops := LoopController.powerUp,
        switch := { SwitchUnit.powerUp with draws := s.switch.draws, starts := s.switch.starts }, engine := GrantEngine.powerUp, notices := NoticeUnit.powerUp,
        links := fill 12 LinkRec.mute, maint := { MaintPort.powerUp with response := s.maint.response } }
    (s.restart.startUp = .settling → s.restart.settleTimer = some 0 →
      (held = false → exec .xoSettleExpiry s = .next
        { fresh with
          notices := told NoticeUnit.powerUp, links := links,
          restart := { s.restart with startUp := .running, settleTimer := none, restartTimer := none, continuity := s.restart.jumpers.continuity } }) ∧
      (held = true → exec .xoSettleExpiry s = .next
        { fresh with
          restart := { s.restart with startUp := .restarting, settleTimer := none, restartTimer := some 2,
                                      continuity := s.restart.jumpers.continuity } })) ∧
    (s.restart.startUp ≠ .settling ∨ s.restart.settleTimer ≠ some 0 → exec .xoSettleExpiry s = .next s) ∧
    (∃ station : StationBlock,
      s.endRestart = { s with
        station := station, notices := told s.notices, links := links,
        restart := { s.restart with startUp := .running, settleTimer := none, restartTimer := none } } ∧
      (∀ r, station.ref r = (s.station.ref r).judgeAfresh r s.station.rate) ∧
      (Ref.xo ∈ s.station.priority →
        station.station = if (station.ref .xo).state = .qualified then some .xo else none) ∧
      station = { s.station with refs := station.refs, station := station.station, restore := none }) ∧
    (s.restart.startUp = .restarting → s.restart.restartTimer = some 0 →
      (held = false → exec .restartTimerExpiry s = .next s.endRestart) ∧
      (held = true → exec .restartTimerExpiry s = .next { s with restart := { s.restart with restartTimer := none } })) ∧
    (s.restart.startUp ≠ .restarting ∨ s.restart.restartTimer ≠ some 0 → exec .restartTimerExpiry s = .next s))

/-! ### Loops -/

/-- A comparison window and the expiry of a settle timer at a RUNNING card (R49 to R53, R56, R63). IDLE and WAITING loops, and a loop in HOLDOVER
without a station reference, complete no window. Every other window sets the last window error; a TIMED loop judges none; an AUTO loop goes by
the capture, coarse, fine and lock thresholds of Table 3-3, NO_ACTIVITY lying beyond each. A settle timer run out takes an ACQUIRING loop to
LOCKED with lock gained, outside inspection hold. Nothing but the loop's record and its lock events changes. -/
def Obligations.LockDetectorWindows : Prop :=
  ∀ (s : State) (k : LoopIx) (e : WindowError), s.restart.startUp = .running →
    let l := s.loop k
    let put : LoopRec → List LockEvent → Outcome := fun r ev =>
      .next { s with loops := { s.loops with loops := wr s.loops.loops k r, events := wr s.loops.events k (rd s.loops.events k ++ ev) } }
    let r : LoopRec := { l with lastError := some e }
    let within : Nat → Prop := fun n => ∃ x : Int, e = .ppm x ∧ x.natAbs ≤ n
    let full : LoopTimer := { kind := .acquire, remaining := s.loops.acquireLimit }
    let window := exec (.loopWindow k e) s
    let lost : Prop :=
      (within 600 → window = put { r with state := .tracking, good := 0, timer := some full } [{ kind := .lost, state := .tracking }]) ∧
      (¬ within 600 → window = put { r with state := .acquiring, good := 0, timer := some full } [{ kind := .lost, state := .acquiring }])
    (l.state = .idle ∨ l.state = .waiting ∨ (l.state = .holdover ∧ s.station.station = none) → window = .next s) ∧
    (∀ t, l.run.map Run.mode = some (.timed t) →
      l.state = .acquiring ∨ l.state = .tracking ∨ l.state = .locked ∨ (l.state = .holdover ∧ s.station.station ≠ none) → window = put r []) ∧
    (l.run.map Run.mode = some .auto →
      (l.state = .acquiring →
        (within 20 → window = put { r with state := .tracking, good := 1 } []) ∧
        (within 300 → ¬ within 20 → window = put { r with state := .tracking, good := 0 } []) ∧
        (¬ within 300 → window = put { r with good := 0 } [])) ∧
      (l.state = .tracking →
        (¬ within 600 → window = put { r with state := .acquiring, good := 0 } []) ∧
        (within 600 → ¬ within 20 → window = put { r with good := 0 } []) ∧
        (within 20 → l.good + 1 ≠ 4 → window = put { r with good := l.good + 1 } []) ∧
        (within 20 → l.good + 1 = 4 →
          window = put { r with state := .locked, good := 4, timer := none } [{ kind := .gained, state := .locked }])) ∧
      (l.state = .locked → (within 60 → window = put r []) ∧ (¬ within 60 → lost)) ∧
      (l.state = .holdover → s.station.station ≠ none →
        (within 60 → window = put { r with state := .locked, good := 4 } [{ kind := .holdoverEnded, state := .locked }]) ∧
        (¬ within 60 → lost))) ∧
    (s.maint.hold = false → l.timer = some { kind := .settle, remaining := 0 } → l.state = .acquiring →
      exec (.settleTimerExpiry k) s = put { l with state := .locked, timer := none } [{ kind := .gained, state := .locked }]) ∧
    (s.maint.hold = true ∨ l.timer ≠ some { kind := .settle, remaining := 0 } ∨ l.state ≠ .acquiring →
      exec (.settleTimerExpiry k) s = .next s)

/-- A loop failure (R55, R57, R66, R99): the acquire timer run out in ACQUIRING or TRACKING, or the holdover timer in HOLDOVER, outside
inspection hold. The loop's waiting lock events are taken (the model takes them first, log 14), it is quarantined with its cause, every binding
still on its list is rescued, oldest first, all in one moment (log 6), and it goes to IDLE; LOOP_FAILED is then raised once, and an empty latch
takes the most urgent pending cause (R149). What the ports and the group dividers do when a loop goes IDLE is stated last (R77, R80, R85): a
switch toward it loses its target and ends void in stasis, its dividers stop for good, a port that falls silent before stasis begins it, and a
port at rest keeps its record. -/
def Obligations.LoopFailureCarriedOut : Prop :=
  (∀ (s : State) (k : LoopIx), s.restart.startUp = .running →
    let quarantined : FailCause → LoopRec := fun cause =>
      { state := .idle, failed := some cause, run := none, good := 0, lastError := none, timer := none }
    let failed : FailCause → State → Prop := fun cause t =>
      let walk : State → State := fun x =>
        let u := (x.takeAllLocks k).markFailed k cause
        (u.list k).foldl (fun y b => if (y.list k).any (fun z => z.handle == b.handle) then y.rescueBinding k b else y) u
      let v := s.oneMoment walk
      t.loops = { v.loops with loops := wr v.loops.loops k (quarantined cause) } ∧
      t.switch = v.switch.loopIdle t.loops.loops s.station.station k ∧
      t.engine = v.engine ∧ t.notices = v.notices ∧
      (∀ c : Cause, rd t.maint.attention.counts c.index =
        if c = .loopFailed then min 255 (rd v.maint.attention.counts c.index + 1) else rd v.maint.attention.counts c.index) ∧
      1 ≤ rd t.maint.attention.counts Cause.loopFailed.index ∧ t.maint.attention.latched.isSome = true ∧
      (∀ c, s.maint.attention.latched = some c → t.maint.attention.latched = some c) ∧
      (s.maint.attention.latched = none → t.maint.attention.latched =
        [Cause.stationNone, .loopFailed, .grantStranded, .stationSwitched, .referenceQualified].find?
          (fun c => decide (0 < rd t.maint.attention.counts c.index))) ∧
      t.restart = s.restart ∧ t.present = s.present ∧ t.station = s.station ∧ t.plan = s.plan ∧ t.links = s.links ∧ t.pending = s.pending ∧
      t.loops.acquireLimit = s.loops.acquireLimit ∧ t.loops.holdoverLimit = s.loops.holdoverLimit ∧
      t.maint = { s.maint with attention := t.maint.attention }
    (s.maint.hold = false →
      ((s.loop k).timer = some { kind := .acquire, remaining := 0 } → (s.loop k).state = .acquiring ∨ (s.loop k).state = .tracking →
        ∃ t, exec (.acquireTimeout k) s = .next t ∧ failed .acquireTimeout t) ∧
      ((s.loop k).timer = some { kind := .holdover, remaining := 0 } → (s.loop k).state = .holdover →
        ∃ t, exec (.holdoverExpired k) s = .next t ∧ failed .holdoverExpired t)) ∧
    (s.maint.hold = true ∨ (s.loop k).timer ≠ some { kind := .acquire, remaining := 0 } ∨
        ((s.loop k).state ≠ .acquiring ∧ (s.loop k).state ≠ .tracking) → exec (.acquireTimeout k) s = .next s) ∧
    (s.maint.hold = true ∨ (s.loop k).timer ≠ some { kind := .holdover, remaining := 0 } ∨ (s.loop k).state ≠ .holdover →
      exec (.holdoverExpired k) s = .next s)) ∧
  (∀ (loops : Vector LoopRec 6) (station : Option Ref) (u : SwitchUnit) (k : LoopIx), (rd loops k).state = .idle →
    let after := u.loopIdle loops station k
    (∀ g, rd after.dividers g = (rd u.dividers g).map (fun dv => if dv.loop = k then { dv with stopped := true } else dv)) ∧
    after.draws = u.draws ∧ after.sameMoment = u.sameMoment ∧ after.starts = u.starts ∧
    (∀ p, let r := rd u.ports p
      let becomes : PortRec × List Report → Prop := fun y => rd after.ports p = y.1 ∧ rd after.reports p = rd u.reports p ++ y.2
      (r.switching = none → becomes (r, [])) ∧
      (∀ sw, r.switching = some sw →
        let low := sw.stasis = true ∨ r.current = .none ∨ silentSource loops station r.current = true
        ((∃ d g, sw.target = .loop k d g) →
          (low → becomes ({ current := .none, switching := none, count := 0, origin := .unbegun }, [.void sw.target])) ∧
          (¬ low → becomes ({ r with switching := some { sw with lost := true } }, []))) ∧
        ((∀ d g, sw.target ≠ .loop k d g) → becomes (r.advance loops station) ∧
          (¬ low → becomes (r, [])) ∧
          (low → sw.lost = false → sw.target ≠ .none → sw.target.group ≠ none ∨ silentSource loops station sw.target = false →
            becomes ({ r with switching := some { sw with stasis := true } }, []))))))

/-- The rescue of one binding of a failing loop k (R100, R101, R102, R105): a RETUNE_TARGET binding leaves the list and its grant's retune is
abandoned with RETUNE_FAILED; a grant whose NEW_LOOP retune takes over moves onto the retune's loop, PENDING with the completion mark; an
ungrouped grant moves to the loop that allocation finds for its target with k excluded, PENDING with RESCUED, or is stranded with STRANDED and
the cause GRANT_STRANDED. Its port is requested by its new state each time. A SAME_LOOP retune in flight is
abandoned first, with RETUNE_FAILED. (A grouped grant is rescued with its group: RescueOfAGroup.) -/
def Obligations.RescueOfOneBinding : Prop :=
  ∀ (s : State) (k : LoopIx) (b : Binding) (g : Grant), s.resolve b.handle = some g →
    let p := b.handle.port
    let left := (rd s.engine.lists k).filter (fun x => x.handle != b.handle)
    (∀ t f tol cut, b.role = .retuneTarget → g.retune = some (.newLoop t f tol cut) →
      let after : Grant := { g with retune := none }
      s.rescueBinding k b =
        { s with engine := { s.engine with grants := wr s.engine.grants p (some after), lists := wr s.engine.lists k left },
                 notices := s.notices.raise p .retuneFailed,
                 switch := s.switch.request s.loops.loops s.station.station p (s.portTarget after) }) ∧
    (∀ t f tol cut, b.role = .current → g.retune = some (.newLoop t f tol cut) → t.loop ≠ k →
      let after : Grant := { g with binding := some t, f := f, tol := tol, retune := none, mark := true, state := .pending }
      let onTarget := (rd s.engine.lists t.loop).map (fun x => if x.handle = b.handle then { x with role := .current } else x)
      s.rescueBinding k b =
        { s with engine := { s.engine with grants := wr s.engine.grants p (some after),
                                           lists := wr (wr s.engine.lists t.loop onTarget) k left },
                 switch := s.switch.request s.loops.loops s.station.station p (s.portTarget after) }) ∧
    (∀ d f tol, b.role = .current → g.retune = some (.sameLoop d f tol) → g.group = none →
      let abandoned : State :=
        { s with engine := { s.engine with grants := wr s.engine.grants p (some { g with retune := none }) },
                 notices := s.notices.raise p .retuneFailed }
      s.rescueBinding k b = abandoned.rescueBinding k b) ∧
    (b.role = .current → g.retune = none → g.group = none →
      (∀ n, s.allocate g.f g.tol (some k) = some n →
        let after : Grant := { g with binding := some n, state := .pending }
        let started : LoopRec := LoopRec.started s.loops.acquireLimit s.station.station n.entry (planMode s.plan n.entry)
        let loops := if (s.loop n.loop).state = .idle then { s.loops with loops := wr s.loops.loops n.loop started } else s.loops
        let target : Source := if (s.loop n.loop).state = .locked then .loop n.loop n.d none else g.pendingSource
        n.loop ≠ k ∧ s.rescueBinding k b =
          { s with
            engine := { s.engine with
              grants := wr s.engine.grants p (some after),
              lists := wr (wr s.engine.lists k left) n.loop (rd s.engine.lists n.loop ++ [{ handle := b.handle, d := n.d, role := .current }]) },
            loops := loops, notices := s.notices.raise p .rescued,
            switch := s.switch.request loops.loops s.station.station p target }) ∧
      (s.allocate g.f g.tol (some k) = none →
        let after : Grant := { g with binding := none, state := .stranded, retune := none, mark := false }
        let a := s.maint.attention
        s.rescueBinding k b =
          { s with
            engine := { s.engine with grants := wr s.engine.grants p (some after), lists := wr s.engine.lists k left },
            notices := s.notices.raise p .stranded,
            maint := { s.maint with attention := { a with
              counts := wr a.counts Cause.grantStranded.index (min 255 (rd a.counts Cause.grantStranded.index + 1)) } },
            switch := s.switch.request s.loops.loops s.station.station p g.pendingSource }))

/-- The rescue of an alignment group of the failing loop k (R103, R104, R105), met at any of its members. SAME_LOOP retunes of members are abandoned
with RETUNE_FAILED. The search takes, in R9's order, the first loop other than k that serves every member, each with its own smallest divider and
their least common multiple at most 4,096. The group moves whole: bindings to the tail of that loop's list in member order, a start when it was
IDLE, every member PENDING with RESCUED, loop and divider of the group set and given to the port switch unit, then each port requested by its
state. Where no loop serves all, every member is stranded, GRANT_STRANDED raised for each, and the group dissolved. Nothing else changes. -/
def Obligations.RescueOfAGroup : Prop :=
  ∀ (s : State) (k : LoopIx) (b : Binding) (gi : GroupIx) (gr : Group) (g : Grant),
    s.resolve b.handle = some g → b.role = .current → g.group = some gi → rd s.engine.groups gi = some gr → b.handle ∈ gr.members →
    (gr.members.map Handle.port).Nodup →
    (∀ h ∈ gr.members, ∃ m : Grant, s.resolve h = some m ∧ ∀ t f tol cut, m.retune ≠ some (.newLoop t f tol cut)) →
    let t := s.rescueBinding k b
    let serves : EntryIx → List Nat → Prop := fun i ds => ds.length = gr.members.length ∧ lcmOf ds ≤ 4096 ∧
      ∀ (n : Nat) (h : Handle) (d : Nat), gr.members[n]? = some h → ds[n]? = some d → ∃ m : Grant, s.grantAt h.port = some m ∧ matchEntry s.plan s.station.rate i m.f m.tol = some d
    let runs : LoopIx → EntryIx → List Nat → Prop := fun j i ds => j ≠ k ∧ (s.loop j).run.map Run.entry = some i ∧ serves i ds
    let locked : LoopIx → Prop := fun j => (s.loop j).state = .locked
    let unlocked : LoopIx → Prop := fun j => (s.loop j).state = .acquiring ∨ (s.loop j).state = .tracking ∨ (s.loop j).state = .waiting
    let startable : LoopIx → Prop := fun j => j ≠ k ∧ (s.loop j).state = .idle ∧ (s.loop j).failed = none
    let abandoned : NoticeUnit := gr.members.foldl (fun (u : NoticeUnit) (h : Handle) =>
      if ((s.grantAt h.port).bind Grant.retune).isSome then u.raise h.port .retuneFailed else u) s.notices
    let moved : LoopIx → EntryIx → List Nat → Prop := fun j i ds =>
      let started : LoopRec := LoopRec.started s.loops.acquireLimit s.station.station i (planMode s.plan i)
      let loops := if (s.loop j).state = .idle then { s.loops with loops := wr s.loops.loops j started } else s.loops
      (∀ (n : Nat) (h : Handle) (d : Nat), gr.members[n]? = some h → ds[n]? = some d → t.grantAt h.port = (s.grantAt h.port).map (fun m =>
        { m with binding := some { loop := j, entry := i, d := d }, state := .pending, retune := none })) ∧
      (∀ q, q ∉ gr.members.map Handle.port → t.grantAt q = s.grantAt q) ∧
      t.list k = (s.list k).filter (fun x => !gr.members.contains x.handle) ∧
      t.list j = s.list j ++ (gr.members.zip ds).map (fun m => { handle := m.1, d := m.2, role := .current }) ∧
      (∀ l, l ≠ k → l ≠ j → t.list l = s.list l) ∧
      t = { s with
        engine := { t.engine with generations := s.engine.generations,
                                  groups := wr s.engine.groups gi (some { gr with loop := j, g := lcmOf ds }) },
        loops := loops,
        notices := gr.members.foldl (fun (u : NoticeUnit) (h : Handle) => u.raise h.port .rescued) abandoned,
        switch := gr.members.foldl (fun (u : SwitchUnit) (h : Handle) => match t.grantAt h.port with
            | some m => u.request loops.loops s.station.station h.port (t.portTarget m)
            | none => u)
          (s.switch.giveDivider loops.loops s.station.station gi j (lcmOf ds)) }
    let stranded : Prop :=
      (∀ h ∈ gr.members, t.grantAt h.port = (s.grantAt h.port).map (fun m =>
        { m with binding := none, state := .stranded, retune := none, mark := false, group := none })) ∧
      (∀ q, q ∉ gr.members.map Handle.port → t.grantAt q = s.grantAt q) ∧
      t.list k = (s.list k).filter (fun x => !gr.members.contains x.handle) ∧ (∀ l, l ≠ k → t.list l = s.list l) ∧
      t = { s with
        engine := { t.engine with generations := s.engine.generations, groups := wr s.engine.groups gi none },
        notices := gr.members.foldl (fun (u : NoticeUnit) (h : Handle) => u.raise h.port .stranded) abandoned,
        maint := { s.maint with attention := gr.members.foldl (fun a _ => a.raise .grantStranded) s.maint.attention },
        switch := (gr.members.foldl (fun (u : SwitchUnit) (h : Handle) => match s.grantAt h.port with
            | some m => u.request s.loops.loops s.station.station h.port m.pendingSource
            | none => u) s.switch).releaseDivider s.loops.loops s.station.station gi }
    (∀ j i ds, locked j → runs j i ds → (∀ l < j, locked l → ∀ i ds, ¬ runs l i ds) → moved j i ds) ∧
    ((∀ l, locked l → ∀ i ds, ¬ runs l i ds) →
      (∀ j i ds, unlocked j → runs j i ds → (∀ l < j, unlocked l → ∀ i ds, ¬ runs l i ds) → moved j i ds) ∧
      ((∀ l, unlocked l → ∀ i ds, ¬ runs l i ds) →
        (∀ j i ds, startable j → (∀ l < j, ¬ startable l) → serves i ds → (∀ l < i, ∀ ds, ¬ serves l ds) → moved j i ds) ∧
        ((∀ j, ¬ startable j) ∨ (∀ i ds, ¬ serves i ds) → stranded)))

/-- Lock events taken by the grant engine at a RUNNING card (R65, R88, R92, R94 to R98, R114, R116). A loop's events are taken in the order
raised, each walking the loop's binding list as it stands, its requests all in one moment (log 6); the row of another kind than the next event
changes nothing (log 5). At each binding: what lock gained, lock lost and holdover entered do to its grant by role and state. A binding whose
handle names no live grant is passed over. -/
def Obligations.LockEventsTaken : Prop :=
  (∀ (s : State) (k : LoopIx), s.restart.startUp = .running →
    let row : LockEventKind → Outcome := fun kind => match kind with
      | .gained => exec (.lockGained k) s
      | .lost => exec (.lockLost k) s
      | .holdoverEntered => exec (.holdoverEntered k) s
      | .holdoverEnded => exec (.holdoverEnded k) s
    (rd s.loops.events k = [] → ∀ kind, row kind = .next s) ∧
    (∀ e rest, rd s.loops.events k = e :: rest →
      let u : State := { s with loops := { s.loops with events := wr s.loops.events k rest } }
      (∀ kind, kind ≠ e.kind → row kind = .next s) ∧
      (e.kind = .gained → row .gained = .next (u.oneMoment (fun v => (s.list k).foldl State.gainedAt v))) ∧
      (e.kind = .lost → row .lost = .next (u.oneMoment (fun v => (s.list k).foldl State.lostAt v))) ∧
      (e.kind = .holdoverEntered → row .holdoverEntered = .next ((s.list k).foldl State.holdoverAt u)) ∧
      (e.kind = .holdoverEnded → row .holdoverEnded = .next u))) ∧
  (∀ (s : State) (b : Binding), s.resolve b.handle = none → s.gainedAt b = s ∧ s.lostAt b = s ∧ s.holdoverAt b = s) ∧
  (∀ (s : State) (b : Binding) (g : Grant), s.resolve b.handle = some g →
    let p := b.handle.port
    let toward : Source → State := fun x => { s with switch := s.switch.request s.loops.loops s.station.station p x }
    let become : Grant → State := fun a =>
      { s with engine := { s.engine with grants := wr s.engine.grants p (some a) },
               switch := s.switch.request s.loops.loops s.station.station p (s.portTarget a) }
    (b.role = .current →
      (g.state = .pending ∨ (g.state = .degraded ∧ g.policy ≠ .keep) →
        (∀ c, g.binding = some c → (∀ t f tol, g.retune ≠ some (.newLoop t f tol .inFlight)) → s.gainedAt b = toward (.loop c.loop c.d g.group)) ∧
        (∀ t f tol, g.retune = some (.newLoop t f tol .inFlight) → s.gainedAt b = toward (.loop t.loop t.d none))) ∧
      (g.state = .degraded → g.policy = .keep →
        s.gainedAt b = { become { g with state := .active } with notices := s.notices.raise p .restored }) ∧
      (g.state = .active ∨ g.state = .stranded → s.gainedAt b = s) ∧
      (g.state = .active → (∀ d f tol, g.retune ≠ some (.sameLoop d f tol)) →
        s.lostAt b = { become { g with state := .degraded } with notices := s.notices.raise p .degraded }) ∧
      (∀ d f tol c, g.state = .active → g.retune = some (.sameLoop d f tol) → g.binding = some c →
        let after : Grant := { g with f := f, tol := tol, binding := some { c with d := d }, retune := none, mark := false, state := .degraded }
        let lists := wr s.engine.lists c.loop ((rd s.engine.lists c.loop).map (fun x => if x.handle = b.handle then { x with d := d } else x))
        let commit : Vector (Option Group) 8 → State := fun groups =>
          { s with engine := { s.engine with grants := wr s.engine.grants p (some after), lists := lists, groups := groups },
                   notices := (s.notices.raise p .retuned).raise p .degraded,
                   switch := s.switch.request s.loops.loops s.station.station p (s.portTarget after) }
        (g.group = none → s.lostAt b = commit s.engine.groups) ∧
        (∀ gi gr, g.group = some gi → rd s.engine.groups gi = some gr →
          s.lostAt b = commit (wr s.engine.groups gi (some { gr with g := Nat.lcm gr.g d })))) ∧
      (g.state = .pending ∨ g.state = .degraded → s.lostAt b = toward (s.portTarget g)) ∧
      (g.state = .stranded → s.lostAt b = s) ∧
      (g.state = .active → s.holdoverAt b = { s with notices := s.notices.raise p .holdover }) ∧
      (g.state ≠ .active → s.holdoverAt b = s)) ∧
    (b.role = .retuneTarget →
      s.holdoverAt b = s ∧
      (∀ t f tol cut, g.retune = some (.newLoop t f tol cut) →
        s.gainedAt b = become { g with retune := some (.newLoop t f tol .inFlight) } ∧
        (cut = .inFlight → s.lostAt b = become { g with retune := some (.newLoop t f tol .awaitingLock) }) ∧
        (cut = .awaitingLock → s.lostAt b = s))))

/-! ### Ports -/

/-- The lines and the switches of the ports (R72, R73, R75 to R78). A divider's output is high for the first ⌈n/2⌉ periods of a count and low for
the rest, and a divider of 1 passes its input through; a port that is OFF, silent or in stasis holds its line low. What a port does at once by
the state of its sources; what a switch request does; the low phase that begins a stasis; and the low phase of the new source's first count that
completes a switch onto an unaligned source. Where in its count a running line stands when it is asked to switch is free (log 6): the half-periods
of its input at the moment, counted on from the origin of its count, so that lines of one divider and one origin are at one level, and those of a
divider of 1 on one input always. The statement holds for every value. Other ports, and every other block, are as they were. -/
def Obligations.PortSwitches : Prop :=
  (∀ half : Nat,
    (dividerLow 1 half = true ↔ half % 2 = 1) ∧
    (∀ n, 2 ≤ n → (dividerLow n half = true ↔ (n + 1) / 2 ≤ half / 2 % n))) ∧
  (∀ (loops : Vector LoopRec 6) (station : Option Ref) (u : SwitchUnit) (p : PortIx),
    let driven : PortRec → Prop := fun r =>
      r.current ≠ .none ∧ silentSource loops station r.current = false ∧ ∀ sw, r.switching = some sw → sw.stasis = false
    let r := rd u.ports p
    let position : ClockInput → Nat := fun input => Config.halfPeriods u.draws input + 2 * r.origin.lead input
    (¬ driven r → u.lineLow loops station p = true) ∧
    (∀ k d g, driven r → r.current = .loop k d g → u.lineLow loops station p = dividerLow d (position (.loop k))) ∧
    (∀ fd, driven r → r.current = .fallback fd → u.lineLow loops station p = dividerLow fd (position .station)) ∧
    (∀ q, let x := rd u.ports q
      driven r → driven x → x.current.input = r.current.input → x.current.divider = r.current.divider →
      x.origin = r.origin ∨ r.current.divider = 1 → u.lineLow loops station q = u.lineLow loops station p)) ∧
  (∀ (loops : Vector LoopRec 6) (station : Option Ref) (r : PortRec),
    (r.switching = none → r.advance loops station = (r, [])) ∧
    (∀ sw, r.switching = some sw →
      let low := sw.stasis = true ∨ r.current = .none ∨ silentSource loops station r.current = true
      let quiet := sw.target = .none ∨ (sw.target.group = none ∧ silentSource loops station sw.target = true)
      (¬ low → r.advance loops station = (r, [])) ∧
      (low → sw.lost = true →
        r.advance loops station = ({ current := .none, switching := none, count := 0, origin := .unbegun }, [.void sw.target])) ∧
      (low → sw.lost = false → quiet →
        r.advance loops station = ({ current := sw.target, switching := none, count := 0, origin := .unbegun }, [.completion sw.target])) ∧
      (low → sw.lost = false → ¬ quiet → r.advance loops station = ({ r with switching := some { sw with stasis := true } }, [])))) ∧
  (∀ (loops : Vector LoopRec 6) (station : Option Ref),
    (∀ k d g, (silentSource loops station (.loop k d g) = true ↔ (rd loops k).state = .waiting ∨ (rd loops k).state = .idle) ∧
      (targetIdle loops (.loop k d g) = true ↔ (rd loops k).state = .idle)) ∧
    (∀ fd, (silentSource loops station (.fallback fd) = true ↔ station = none) ∧ targetIdle loops (.fallback fd) = false) ∧
    silentSource loops station .none = false ∧ targetIdle loops .none = false) ∧
  (∀ (loops : Vector LoopRec 6) (station : Option Ref) (u : SwitchUnit) (p : PortIx) (x : Source),
    let r := rd u.ports p
    let asked := u.request loops station p x
    let becomes : PortRec × List Report → Prop := fun y =>
      asked.ports = wr u.ports p y.1 ∧ asked.reports = wr u.reports p (rd u.reports p ++ y.2)
    let toward : Bool → PortRec × List Report := fun stasis =>
      PortRec.advance loops station { r with switching := some { target := x, stasis := stasis, lost := targetIdle loops x } }
    asked.dividers = u.dividers ∧
    (r.switching = none → x = r.current → asked = u) ∧
    (r.switching = none → x ≠ r.current → becomes (toward (u.lineLow loops station p))) ∧
    asked.sameMoment = u.sameMoment ∧ asked.starts = u.starts ∧
    (∀ sw, r.switching = some sw →
      (x = sw.target → asked = u) ∧
      (x ≠ sw.target → sw.stasis = false → x = r.current → becomes ({ r with switching := none }, [.completion x])) ∧
      (x ≠ sw.target → sw.stasis = true ∨ x ≠ r.current → becomes (toward sw.stasis)))) ∧
  (∀ (s : State) (p : PortIx), s.restart.startUp = .running →
    let r := rd s.switch.ports p
    let put : PortRec × List Report → Outcome := fun y =>
      .next { s with switch := { s.switch with ports := wr s.switch.ports p y.1, reports := wr s.switch.reports p (rd s.switch.reports p ++ y.2) } }
    (∀ sw, r.switching = some sw →
      (sw.stasis = false → exec (.stasisBegins p) s =
        put (PortRec.advance s.loops.loops s.station.station { r with switching := some { sw with stasis := true } })) ∧
      (sw.stasis = true → exec (.stasisBegins p) s = .next s) ∧
      (sw.stasis = true → sw.lost = false → sw.target.group = none → exec (.portSwitchCompletes p) s =
        .next { s with switch := { s.switch with
          ports := wr s.switch.ports p
            { current := sw.target, switching := none, origin := .begun s.switch.starts,
              count := if sw.target.divider = 1 then 1 else 2 * ((sw.target.divider + 1) / 2) },
          reports := wr s.switch.reports p (rd s.switch.reports p ++ [.completion sw.target]),
          starts := s.switch.starts + 1 } }) ∧
      (sw.stasis = false ∨ sw.lost = true ∨ sw.target.group ≠ none → exec (.portSwitchCompletes p) s = .next s)) ∧
    (r.switching = none → exec (.stasisBegins p) s = .next s ∧ exec (.portSwitchCompletes p) s = .next s))

/-- Group dividers (R80 to R84): what a rollover does at the divider and at every port, and what giving a value and releasing a divider do. A
divider whose loop produces no output, or has gone IDLE, does not roll over. The ports a rollover restarts count from the divider's own origin (log
6), and a value that takes over begins whole counts of the old value later, so it changes no edge of a divider that divides the old value. A value
given, a divider moved and a divider released change no port's line. -/
def Obligations.GroupDividers : Prop :=
  (∀ (s : State) (g : GroupIx), s.restart.startUp = .running →
    (rd s.switch.dividers g = none → exec (.groupRollover g) s = .next s) ∧
    (∀ dv, rd s.switch.dividers g = some dv →
      let produces := (s.loop dv.loop).state ≠ .idle ∧ (s.loop dv.loop).state ≠ .waiting
      (dv.stopped = true ∨ ¬ produces → exec (.groupRollover g) s = .next s) ∧
      (dv.stopped = false → produces → ∃ (v : Nat) (o : CountOrigin) (u : SwitchUnit), exec (.groupRollover g) s = .next { s with switch := u } ∧
        (dv.pendingValue = none → v = dv.value ∧ o = dv.origin) ∧
        (∀ w, dv.pendingValue = some w → v = w ∧ o = .takeover dv.origin dv.value s.switch.starts) ∧
        (∀ d half input, d ∣ dv.value → dividerLow d (half + 2 * o.lead input) = dividerLow d (half + 2 * dv.origin.lead input)) ∧
        u.dividers = wr s.switch.dividers g (some { dv with value := v, pendingValue := none, count := 0, origin := o }) ∧
        u.draws = s.switch.draws ∧ u.sameMoment = s.switch.sameMoment ∧ u.starts = s.switch.starts + 1 ∧
        (∀ p, let r := rd s.switch.ports p
          let driven := r.current.group = some g ∧ v % r.current.divider = 0
          (∀ sw, r.switching = some sw → sw.stasis = true → sw.lost = false → sw.target.group = some g → v % sw.target.divider = 0 →
            rd u.ports p = { current := sw.target, switching := none, count := 0, origin := o } ∧
            rd u.reports p = rd s.switch.reports p ++ [.completion sw.target]) ∧
          ((∀ sw, r.switching = some sw → sw.stasis = false) → driven →
            rd u.ports p = { r with count := 0, origin := o } ∧ rd u.reports p = rd s.switch.reports p) ∧
          ((∀ sw, r.switching = some sw → sw.stasis = true → sw.lost = true ∨ sw.target.group ≠ some g ∨ v % sw.target.divider ≠ 0) →
            ((∃ sw, r.switching = some sw ∧ sw.stasis = true) ∨ ¬ driven) →
            rd u.ports p = r ∧ rd u.reports p = rd s.switch.reports p))))) ∧
  (∀ (loops : Vector LoopRec 6) (station : Option Ref) (u : SwitchUnit) (g : GroupIx) (k : LoopIx) (v : Nat),
    let given := u.giveDivider loops station g k v
    let fresh : GroupDivider := { loop := k, value := v, pendingValue := none, count := 0, stopped := false, origin := .begun u.starts }
    let loses : Source → Source := fun x =>
      if x.group = some g then (match x with
        | .loop j d _ => .loop j d none
        | y => y) else x
    let loosed : SwitchUnit → Prop := fun w => ∀ p,
      let r := rd u.ports p
      let r' : PortRec := { r with current := loses r.current, switching := r.switching.map (fun sw => { sw with target := loses sw.target }) }
      rd w.ports p = (r'.advance loops station).1 ∧ rd w.reports p = rd u.reports p ++ (r'.advance loops station).2
    (rd u.dividers g = none → given = { u with dividers := wr u.dividers g (some fresh), starts := u.starts + 1 }) ∧
    (∀ dv, rd u.dividers g = some dv →
      (dv.loop = k → v = dv.value → dv.pendingValue = none → given = u) ∧
      (dv.loop = k → v ≠ dv.value ∨ dv.pendingValue ≠ none →
        given = { u with dividers := wr u.dividers g (some { dv with pendingValue := some v }) }) ∧
      (dv.loop ≠ k → given.dividers = wr u.dividers g (some fresh) ∧ given.draws = u.draws ∧ given.sameMoment = u.sameMoment ∧
        given.starts = u.starts + 1 ∧ loosed given)) ∧
    (let freed := u.releaseDivider loops station g
     freed.dividers = wr u.dividers g none ∧ freed.draws = u.draws ∧ freed.sameMoment = u.sameMoment ∧ freed.starts = u.starts ∧ loosed freed ∧
     ∀ p, given.lineLow loops station p = u.lineLow loops station p ∧ freed.lineLow loops station p = u.lineLow loops station p))

/-- Switch reports taken by the grant engine at a RUNNING card (R79, R89 to R91, R114, R116, R117), one port's in the order made; the row of the other
kind than the next report changes nothing (log 5). A report that is not settled, and one for a port without a grant, is answered by no action; a
completion that carries an alignment since lost is not settled (log 31). A settled completion onto the target of a retune in flight commits or
defers it, a grouped SAME_LOOP commit making G the least common multiple of G and the new divider; every other is answered by the grant's state
(cases 2 to 5 of R90), a retune in flight or none. -/
def Obligations.SwitchReportsTaken : Prop :=
  ∀ (s : State) (p : PortIx) (x : Source) (rest : List Report), s.restart.startUp = .running →
    let port := rd s.switch.ports p
    let u : State := { s with switch := { s.switch with reports := wr s.switch.reports p rest } }
    let request : Source → SwitchUnit := fun y => u.switch.request s.loops.loops s.station.station p y
    (rd s.switch.reports p = [] → exec (.switchCompletion p) s = .next s ∧ exec (.switchVoid p) s = .next s) ∧
    (rd s.switch.reports p = .void x :: rest →
      exec (.switchCompletion p) s = .next s ∧
      (port.switching ≠ none ∨ port.current ≠ .none ∨ s.grantAt p = none → exec (.switchVoid p) s = .next u) ∧
      (∀ g, port.switching = none → port.current = .none → s.grantAt p = some g →
        exec (.switchVoid p) s = .next { s with switch := request (s.portTarget g) })) ∧
    (rd s.switch.reports p = .completion x :: rest →
      let taken := exec (.switchCompletion p) s
      exec (.switchVoid p) s = .next s ∧
      (port.switching ≠ none ∨ port.current ≠ x ∨ s.grantAt p = none → taken = .next u) ∧
      (∀ g, port.switching = none → port.current = x → s.grantAt p = some g →
        let h : Handle := { port := p, gen := g.gen }
        let write : Grant → GrantEngine := fun a => { s.engine with grants := wr s.engine.grants p (some a) }
        (∀ t f tol d grp, g.retune = some (.newLoop t f tol .inFlight) → x = .loop t.loop d grp →
          ((s.loop t.loop).state ≠ .locked → (s.loop t.loop).state ≠ .holdover →
            let a : Grant := { g with retune := some (.newLoop t f tol .awaitingLock) }
            taken = .next { s with engine := write a, switch := request (s.portTarget a) }) ∧
          (∀ b, (s.loop t.loop).state = .locked ∨ (s.loop t.loop).state = .holdover → g.binding = some b → b.loop ≠ t.loop →
            ∃ v : State, taken = .next v ∧
              v.grantAt p = some { g with binding := some t, f := f, tol := tol, state := .active, retune := none, mark := false } ∧
              (∀ q, q ≠ p → v.grantAt q = s.grantAt q) ∧ v.engine.groups = s.engine.groups ∧ v.engine.generations = s.engine.generations ∧
              v.list t.loop = (s.list t.loop).map (fun y => if y.handle = h then { y with role := .current } else y) ∧
              v.list b.loop = (s.list b.loop).filter (fun y => y.handle != h) ∧
              (∀ k, k ≠ t.loop → k ≠ b.loop → v.list k = s.list k) ∧
              (∀ k, k ≠ b.loop → v.loop k = s.loop k) ∧
              ((s.list b.loop).any (fun y => y.handle == h) = false ∨ v.list b.loop ≠ [] →
                v.loop b.loop = s.loop b.loop ∧ v.switch = u.switch) ∧
              ((s.list b.loop).any (fun y => y.handle == h) = true → v.list b.loop = [] →
                v.loop b.loop = { state := .idle, failed := none, run := none, good := 0, lastError := none, timer := none } ∧
                v.switch = u.switch.loopIdle v.loops.loops s.station.station b.loop) ∧
              v.notices = (if (s.loop t.loop).state = .holdover then (s.notices.raise p .retuned).raise p .holdover
                else s.notices.raise p .retuned) ∧
              v.restart = s.restart ∧ v.present = s.present ∧ v.station = s.station ∧ v.plan = s.plan ∧ v.maint = s.maint ∧
              v.links = s.links ∧ v.pending = s.pending ∧ v.loops.acquireLimit = s.loops.acquireLimit ∧
              v.loops.holdoverLimit = s.loops.holdoverLimit ∧ v.loops.events = s.loops.events)) ∧
        (∀ d f tol b, g.retune = some (.sameLoop d f tol) → g.binding = some b → x = .loop b.loop d g.group → g.state = .active →
          let a : Grant := { g with f := f, tol := tol, binding := some { b with d := d }, retune := none, mark := false }
          let list := (rd s.engine.lists b.loop).map (fun y => if y.handle = h then { y with d := d } else y)
          let commit : Vector (Option Group) 8 → Outcome := fun groups =>
            .next { u with engine := { write a with lists := wr s.engine.lists b.loop list, groups := groups }, notices := s.notices.raise p .retuned }
          (g.group = none → taken = commit s.engine.groups) ∧
          (∀ gi gr, g.group = some gi → rd s.engine.groups gi = some gr →
            taken = commit (wr s.engine.groups gi (some { gr with g := Nat.lcm gr.g d })))) ∧
        (∀ b, g.retune = none ∨ (∃ t f tol, g.retune = some (.newLoop t f tol .awaitingLock)) ∨
            (∃ t f tol, g.retune = some (.newLoop t f tol .inFlight) ∧ ∀ d grp, x ≠ .loop t.loop d grp) ∨
            (∃ d f tol, g.retune = some (.sameLoop d f tol) ∧ x ≠ .loop b.loop d g.group) → g.binding = some b →
          let arrived := x = .loop b.loop b.d g.group ∧ ((s.loop b.loop).state = .locked ∨ (s.loop b.loop).state = .holdover)
          let told : PortKind → NoticeUnit := fun kind =>
            if (s.loop b.loop).state = .holdover then (s.notices.raise p kind).raise p .holdover else s.notices.raise p kind
          (g.state = .pending → arrived → g.mark = false →
            taken = .next { u with engine := write { g with state := .active }, notices := told .ready }) ∧
          (g.state = .pending → arrived → g.mark = true →
            taken = .next { u with engine := write { g with state := .active, mark := false }, notices := told .retuned }) ∧
          (g.state = .degraded → arrived →
            taken = .next { u with engine := write { g with state := .active }, notices := told .restored }) ∧
          (g.state = .active ∨ g.state = .stranded ∨ ¬ arrived →
            (x = s.portTarget g → taken = .next u) ∧
            (x ≠ s.portTarget g → taken = .next { s with switch := request (s.portTarget g) }))) ∧
        (g.binding = none → g.retune = none → x ≠ s.portTarget g → taken = .next { s with switch := request (s.portTarget g) }) ∧
        (g.binding = none → g.retune = none → x = s.portTarget g → taken = .next u)))

/-! ### Reset and the invariants -/

/-- The card right after reset (R42, R70, R87, R140, R153, R168, R174, R180, R184, R188, Table 1-10): the values of a power-up at the end of the
settle, XO QUALIFIED and the station reference, the cause record {POWER}; and the invariants hold. That the reset state is the end of a power-up,
RUNNING, is the model's choice (log 1), and so are that no slot card is fitted, that the jumpers are removed (log 2, 3) and the empty queue
(log 24). -/
def Obligations.ResetState : Prop :=
  let s := State.reset
  s.restart.startUp = .running ∧ s.restart.settleTimer = none ∧ s.restart.restartTimer = none ∧ s.restart.causes = { power := true } ∧
  s.restart.continuity = s.restart.jumpers.continuity ∧ s.station.period = s.restart.jumpers.qualification ∧
  s.restart.jumpers = { address := 0, continuity := false, qualification := .long } ∧ (∀ slot, rd s.present slot = false) ∧ s.pending = [] ∧
  s.station.ref .xo = { enabled := true, nominal := 40000000, preDivider := some 40, state := .qualified, qualTimer := none, lastError := none } ∧
  (∀ r, r ≠ .xo → s.station.ref r =
    { enabled := true, nominal := 10000000, preDivider := some 10, state := .absent, qualTimer := none, lastError := none }) ∧
  s.station.rate = 1000000 ∧ s.station.station = some .xo ∧ s.station.priority = [.refa, .refb, .xo] ∧ s.station.mode = .nonrevertive ∧
  s.station.restoreDelay = 10 ∧ s.station.restore = none ∧
  (∀ i, rd s.plan i = none) ∧
  (∀ k, s.loop k = { state := .idle, failed := none, run := none, good := 0, lastError := none, timer := none } ∧ s.list k = [] ∧
    rd s.loops.events k = []) ∧
  s.loops.acquireLimit = 250 ∧ s.loops.holdoverLimit = 60 ∧
  (∀ p, s.grantAt p = none ∧ rd s.engine.generations p = 0 ∧ rd s.switch.reports p = [] ∧
    (rd s.switch.ports p).current = .none ∧ (rd s.switch.ports p).switching = none ∧
    (∀ k, rd (rd s.notices.ports p).kinds k = { pending := false, seq := 0 }) ∧ (rd s.notices.ports p).retired = none) ∧
  (∀ g, rd s.engine.groups g = none ∧ rd s.switch.dividers g = none) ∧
  (∀ slot, rd s.notices.slots slot = { restarted := { pending := false, seq := 0 }, continued := { pending := false, seq := 0 } } ∧
    s.attn slot = false ∧
    s.link slot = { listening := false, receiver := .hunting, current := none, busyTag := none, busyTx := none }) ∧
  (∀ c : Cause, rd s.maint.attention.counts c.index = 0) ∧ s.maint.attention.latched = none ∧ s.alert = false ∧
  s.maint.hold = false ∧ s.maint.allowAcks = false ∧ s.maint.waiting = none ∧ s.maint.response = none ∧
  s.maint.attention.Sound ∧ s.station.Sound ∧ s.StartUpSound ∧ s.BuffersSound ∧ s.LoopsSound ∧ s.PortsSound

/-- Every step keeps the attention latch sound (R149: a latched cause is pending, a cause is latched whenever one is pending, counts stay within
0 to 255) and the monitors and the selector sound (R126, R132 to R134: the station reference is NONE or QUALIFIED, NONE only when no reference is
QUALIFIED, the optional fields present exactly in their states, the restore candidate the one R134 names). -/
def Obligations.EveryStepKeepsLatchAndSelector : Prop :=
  ∀ s t : State, step s = .next t →
    (s.maint.attention.Sound → t.maint.attention.Sound) ∧ (s.station.Sound → t.station.Sound)

/-- Every step keeps start-up sound (R168, R183, R186, R187: each start-up timer in its state, every block at rest while the card is closed, no
held restart request at a RUNNING card, a link listening exactly when its slot is present) and the maintenance buffers sound (R171, R172). What
the blocks hold at rest in SUPPLY_HELD and SETTLING, where their state is lost, is the model's choice (log 20). -/
def Obligations.EveryStepKeepsStartUpAndBuffers : Prop :=
  ∀ s t : State, step s = .next t →
    (s.StartUpSound → t.StartUpSound) ∧ (s.StartUpSound → s.BuffersSound → t.BuffersSound)

/-- Every step keeps the loop records sound (Table 3-1: entry, quarantine, timers and window count agree with the state, WAITING only without a
station reference) and the port records sound (R75 to R77: no switch stands where the rules end it or begin its stasis at once), in states whose
start-up is sound, an invariant by EveryStepKeepsStartUpAndBuffers. -/
def Obligations.EveryStepKeepsLoopsAndPorts : Prop :=
  ∀ s t : State, step s = .next t → s.StartUpSound →
    (s.LoopsSound → t.LoopsSound) ∧ (s.PortsSound → t.PortsSound)
end

