-- ==== Sys2Proof/Laws/Encoding.lean ====
section
/-! SUPPORT. Codes and byte order read back (Table 9-2, 10 R175), the CRC-8 register, and frames as the receiver meets them. -/

namespace Sys2Proof

theorem toByte_toNat (n : Nat) : (toByte n).toNat = n % 256 := by simp [toByte]

theorem num16_be16 (n : Nat) (h : n < 65536) : num16 (toByte (n / 256)) (toByte n) = n := by
  simp only [num16, toByte_toNat]; omega

theorem num32_be32 (n : Nat) (h : n < 4294967296) :
    num32 (toByte (n / 16777216)) (toByte (n / 65536)) (toByte (n / 256)) (toByte n) = n := by
  simp only [num32, toByte_toNat]; omega

theorem parseBool_code (x : Bool) : parseBool (toByte (codeBool x)) = some x := by cases x <;> decide

theorem parseLine_code (x : Line) : parseLine (toByte x.code) = some x := by cases x <;> decide

theorem parsePolicy_code (x : Policy) : parsePolicy (toByte x.code) = some x := by cases x <;> decide

theorem parsePlace_code (x : Place) : parsePlace (toByte x.code) = some x := by cases x <;> decide

theorem parseNoticeKind_code (x : NoticeKind) : parseNoticeKind (toByte x.code) = some x := by
  rcases x with k | k <;> cases k <;> decide

theorem parseRef_code (x : Ref) : parseRef (toByte x.code) = some x := by cases x <;> decide

theorem parseSelMode_code (x : SelMode) : parseSelMode (toByte x.code) = some x := by cases x <;> decide

theorem parseQualPeriod_code (x : QualPeriod) : parseQualPeriod (toByte x.code) = some x := by cases x <;> decide

theorem parseCause_code (x : Cause) : parseCause (toByte x.index.val) = some x := by cases x <;> decide

theorem parseHandle_code (h : Option Handle) : ∃ a b, handleBytes h = [a, b] ∧ parseHandle a b = some h := by
  cases h with
  | none => exact ⟨_, _, rfl, by simp [parseHandle]⟩
  | some h =>
    refine ⟨_, _, rfl, ?_⟩
    have hp := h.port.isLt
    have hg := h.gen.isLt
    have e1 : (toByte h.port.val).toNat = h.port.val := by rw [toByte_toNat]; omega
    have e2 : (toByte h.gen.val).toNat = h.gen.val := by rw [toByte_toNat]; omega
    unfold parseHandle
    rw [dif_pos (by rw [e2]; omega), if_neg (by rw [e1]; omega), dif_pos (by rw [e1]; omega)]
    congr 2
    cases h; simp_all

/-! ### Each code is the place of its value in the enumeration, and no byte past its end is one (Table 9-2, 10 R175) -/

theorem parseBool_place : ∀ b : Byte, parseBool b = [false, true][b.toNat]? := by decide +kernel

theorem parseLine_place : ∀ b : Byte, parseLine b = [Line.a, .b][b.toNat]? := by decide +kernel

theorem parsePolicy_place : ∀ b : Byte, parsePolicy b = [Policy.fallback, .stop, .keep][b.toNat]? := by decide +kernel

theorem parsePlace_place : ∀ b : Byte, parsePlace b = [Place.slot, .lineA, .lineB][b.toNat]? := by decide +kernel

theorem parseRef_place : ∀ b : Byte, parseRef b = [Ref.xo, .refa, .refb][b.toNat]? := by decide +kernel

theorem parseSelMode_place : ∀ b : Byte, parseSelMode b = [SelMode.revertive, .nonrevertive][b.toNat]? := by decide +kernel

theorem parseQualPeriod_place : ∀ b : Byte, parseQualPeriod b = [QualPeriod.long, .short][b.toNat]? := by decide +kernel

theorem parseCause_place : ∀ b : Byte,
    parseCause b = [Cause.stationNone, .loopFailed, .grantStranded, .stationSwitched, .referenceQualified][b.toNat]? := by decide +kernel

theorem parseNoticeKind_isSome : ∀ b : Byte, (parseNoticeKind b).isSome = true ↔ b.toNat < 11 := by decide +kernel

/-- Which two bytes are a handle field (09 R157). -/
theorem parseHandle_isSome (p g : Byte) : (parseHandle p g).isSome = true ↔ (p.toNat < 24 ∨ p.toNat = 255) ∧ g.toNat < 16 := by
  unfold parseHandle
  split
  · split
    · simp_all
    · split <;> simp_all
  · simp_all

theorem parseCommand_parts (code : Nat) (pl : List Byte) (c : Instr) (h1 : code < 256) (h2 : pl.length < 256)
    (h : parseCommandPayload code pl = some c) : parseCommand (toByte code :: toByte pl.length :: pl) = some c := by
  simp only [parseCommand, toByte_toNat]
  rw [Nat.mod_eq_of_lt h2, Nat.mod_eq_of_lt h1, if_pos rfl, h]

theorem mod_byte (n : Nat) (h : n < 256) : n % 256 = n := Nat.mod_eq_of_lt h

theorem crcShift_zero : crcShift 0#8 = 0#8 := by decide

theorem crcShift_injective : ∀ a b, crcShift a = crcShift b → a = b := by decide +kernel

/-- Eight shifts of the register lose nothing. -/
theorem crcShift8_injective (a b : Byte)
    (h : crcShift (crcShift (crcShift (crcShift (crcShift (crcShift (crcShift (crcShift a))))))) =
      crcShift (crcShift (crcShift (crcShift (crcShift (crcShift (crcShift (crcShift b)))))))) : a = b := by
  iterate 8 replace h := crcShift_injective _ _ h
  exact h

/-- Registers that one byte brings to the same value were the same. -/
theorem crcByte_injective_register (a b x : Byte) (h : crcByte a x = crcByte b x) : a = b := by
  have h := crcShift8_injective _ _ h
  have h2 := congrArg (· ^^^ x) h
  simpa [BitVec.xor_assoc] using h2

/-- Bytes that bring a register to the same value are the same. -/
theorem crcByte_injective_byte (a x y : Byte) (h : crcByte a x = crcByte a y) : x = y := by
  have h := crcShift8_injective _ _ h
  have h2 := congrArg (a ^^^ ·) h
  simpa [← BitVec.xor_assoc] using h2

/-- Registers that the same bytes bring to the same value were the same. -/
theorem foldl_crcByte_injective (l : List Byte) (a b : Byte) (h : l.foldl crcByte a = l.foldl crcByte b) : a = b := by
  induction l generalizing a b with
  | nil => exact h
  | cons x l ih => exact crcByte_injective_register _ _ _ (ih _ _ h)

/-! ### Frames -/

theorem headKind_headByte (tag : Tag) (k : Nat) (h : k < 32) : headKind (headByte tag k) = k := by
  have := tag.isLt
  unfold headKind headByte
  rw [toByte_toNat]
  omega

theorem headTag_headByte (tag : Tag) (k : Nat) (h : k < 32) : headTag (headByte tag k) = tag := by
  have := tag.isLt
  apply Fin.ext
  simp only [headTag, headByte, toByte_toNat]
  omega

theorem kind_lt (r : SlotReq) : r.kind < 32 := by cases r <;> simp [SlotReq.kind]

/-- The bytes after the start byte of a frame read as that frame (09 R156). -/
theorem frameOf_tail (f : RawFrame) (h : f.payload.length < 256) : frameOf f.tail = some f := by
  cases f with
  | mk head payload check =>
    simp only at h
    simp only [RawFrame.tail, coveredBytes, List.cons_append, frameOf, List.length_append, List.length_cons, List.length_nil, toByte_toNat,
      Nat.mod_eq_of_lt h]
    simp

/-- A proper initial part of a frame is no frame yet (09 R156). -/
theorem frameOf_prefix (f : RawFrame) (h : f.payload.length < 256) (got : List Byte) (b : Byte) (rest : List Byte)
    (e : f.tail = got ++ b :: rest) : frameOf got = none := by
  match got, e with
  | [], _ => rfl
  | [x], _ => rfl
  | x :: y :: more, e =>
    simp only [RawFrame.tail, coveredBytes, List.cons_append, List.cons.injEq] at e
    obtain ⟨rfl, rfl, e⟩ := e
    have hl := congrArg List.length e
    simp only [List.length_append, List.length_cons, List.length_nil] at hl
    have hn : more.length ≠ f.payload.length + 1 := by omega
    simp only [frameOf, toByte_toNat, Nat.mod_eq_of_lt h, if_neg hn]

/-- The bytes that read as a frame are its head, the length of its payload, the payload and its check byte (09 R155, R156). -/
theorem frameOf_iff (bytes : List Byte) (f : RawFrame) : frameOf bytes = some f ↔
    ∃ len : Byte, f.payload.length = len.toNat ∧ bytes = f.head :: len :: (f.payload ++ [f.check]) := by
  constructor
  · intro h
    match bytes, h with
    | head :: len :: rest, h =>
      simp only [frameOf] at h
      split at h
      · rename_i hl
        have hne : rest ≠ [] := by intro e; simp [e] at hl
        rw [List.getLast?_eq_getLast_of_ne_nil hne] at h
        simp only [Option.some.injEq] at h
        subst h
        refine ⟨len, by simp; omega, ?_⟩
        simp [List.dropLast_append_getLast hne]
      · simp at h
  · rintro ⟨len, hl, rfl⟩
    simp [frameOf, hl]

end Sys2Proof
end

