-- ==== Sys2Proof/Laws/State.lean ====
section
/-! SUPPORT. What each update of the card's state leaves unchanged: one lemma for each field and each update, so that no proof unfolds a record update. -/

namespace Sys2Proof.Machine

@[simp] theorem State.setGrant_restart (s : State) (p : PortIx) (g : Option Grant) : (s.setGrant p g).restart = s.restart := by simp [State.setGrant]
@[simp] theorem State.setGrant_present (s : State) (p : PortIx) (g : Option Grant) : (s.setGrant p g).present = s.present := by simp [State.setGrant]
@[simp] theorem State.setGrant_station (s : State) (p : PortIx) (g : Option Grant) : (s.setGrant p g).station = s.station := by simp [State.setGrant]
@[simp] theorem State.setGrant_plan (s : State) (p : PortIx) (g : Option Grant) : (s.setGrant p g).plan = s.plan := by simp [State.setGrant]
@[simp] theorem State.setGrant_loops (s : State) (p : PortIx) (g : Option Grant) : (s.setGrant p g).loops = s.loops := by simp [State.setGrant]
@[simp] theorem State.setGrant_switch (s : State) (p : PortIx) (g : Option Grant) : (s.setGrant p g).switch = s.switch := by simp [State.setGrant]
@[simp] theorem State.setGrant_notices (s : State) (p : PortIx) (g : Option Grant) : (s.setGrant p g).notices = s.notices := by simp [State.setGrant]
@[simp] theorem State.setGrant_maint (s : State) (p : PortIx) (g : Option Grant) : (s.setGrant p g).maint = s.maint := by simp [State.setGrant]
@[simp] theorem State.setGrant_links (s : State) (p : PortIx) (g : Option Grant) : (s.setGrant p g).links = s.links := by simp [State.setGrant]
@[simp] theorem State.setGrant_pending (s : State) (p : PortIx) (g : Option Grant) : (s.setGrant p g).pending = s.pending := by simp [State.setGrant]

@[simp] theorem State.updGrant_restart (s : State) (p : PortIx) (f : Grant → Grant) : (s.updGrant p f).restart = s.restart := by simp [State.updGrant]
@[simp] theorem State.updGrant_present (s : State) (p : PortIx) (f : Grant → Grant) : (s.updGrant p f).present = s.present := by simp [State.updGrant]
@[simp] theorem State.updGrant_station (s : State) (p : PortIx) (f : Grant → Grant) : (s.updGrant p f).station = s.station := by simp [State.updGrant]
@[simp] theorem State.updGrant_plan (s : State) (p : PortIx) (f : Grant → Grant) : (s.updGrant p f).plan = s.plan := by simp [State.updGrant]
@[simp] theorem State.updGrant_loops (s : State) (p : PortIx) (f : Grant → Grant) : (s.updGrant p f).loops = s.loops := by simp [State.updGrant]
@[simp] theorem State.updGrant_switch (s : State) (p : PortIx) (f : Grant → Grant) : (s.updGrant p f).switch = s.switch := by simp [State.updGrant]
@[simp] theorem State.updGrant_notices (s : State) (p : PortIx) (f : Grant → Grant) : (s.updGrant p f).notices = s.notices := by simp [State.updGrant]
@[simp] theorem State.updGrant_maint (s : State) (p : PortIx) (f : Grant → Grant) : (s.updGrant p f).maint = s.maint := by simp [State.updGrant]
@[simp] theorem State.updGrant_links (s : State) (p : PortIx) (f : Grant → Grant) : (s.updGrant p f).links = s.links := by simp [State.updGrant]
@[simp] theorem State.updGrant_pending (s : State) (p : PortIx) (f : Grant → Grant) : (s.updGrant p f).pending = s.pending := by simp [State.updGrant]

@[simp] theorem State.setList_restart (s : State) (k : LoopIx) (l : List Binding) : (s.setList k l).restart = s.restart := by simp [State.setList]
@[simp] theorem State.setList_present (s : State) (k : LoopIx) (l : List Binding) : (s.setList k l).present = s.present := by simp [State.setList]
@[simp] theorem State.setList_station (s : State) (k : LoopIx) (l : List Binding) : (s.setList k l).station = s.station := by simp [State.setList]
@[simp] theorem State.setList_plan (s : State) (k : LoopIx) (l : List Binding) : (s.setList k l).plan = s.plan := by simp [State.setList]
@[simp] theorem State.setList_loops (s : State) (k : LoopIx) (l : List Binding) : (s.setList k l).loops = s.loops := by simp [State.setList]
@[simp] theorem State.setList_switch (s : State) (k : LoopIx) (l : List Binding) : (s.setList k l).switch = s.switch := by simp [State.setList]
@[simp] theorem State.setList_notices (s : State) (k : LoopIx) (l : List Binding) : (s.setList k l).notices = s.notices := by simp [State.setList]
@[simp] theorem State.setList_maint (s : State) (k : LoopIx) (l : List Binding) : (s.setList k l).maint = s.maint := by simp [State.setList]
@[simp] theorem State.setList_links (s : State) (k : LoopIx) (l : List Binding) : (s.setList k l).links = s.links := by simp [State.setList]
@[simp] theorem State.setList_pending (s : State) (k : LoopIx) (l : List Binding) : (s.setList k l).pending = s.pending := by simp [State.setList]

@[simp] theorem State.setGroup_restart (s : State) (gi : GroupIx) (g : Option Group) : (s.setGroup gi g).restart = s.restart := by simp [State.setGroup]
@[simp] theorem State.setGroup_present (s : State) (gi : GroupIx) (g : Option Group) : (s.setGroup gi g).present = s.present := by simp [State.setGroup]
@[simp] theorem State.setGroup_station (s : State) (gi : GroupIx) (g : Option Group) : (s.setGroup gi g).station = s.station := by simp [State.setGroup]
@[simp] theorem State.setGroup_plan (s : State) (gi : GroupIx) (g : Option Group) : (s.setGroup gi g).plan = s.plan := by simp [State.setGroup]
@[simp] theorem State.setGroup_loops (s : State) (gi : GroupIx) (g : Option Group) : (s.setGroup gi g).loops = s.loops := by simp [State.setGroup]
@[simp] theorem State.setGroup_switch (s : State) (gi : GroupIx) (g : Option Group) : (s.setGroup gi g).switch = s.switch := by simp [State.setGroup]
@[simp] theorem State.setGroup_notices (s : State) (gi : GroupIx) (g : Option Group) : (s.setGroup gi g).notices = s.notices := by simp [State.setGroup]
@[simp] theorem State.setGroup_maint (s : State) (gi : GroupIx) (g : Option Group) : (s.setGroup gi g).maint = s.maint := by simp [State.setGroup]
@[simp] theorem State.setGroup_links (s : State) (gi : GroupIx) (g : Option Group) : (s.setGroup gi g).links = s.links := by simp [State.setGroup]
@[simp] theorem State.setGroup_pending (s : State) (gi : GroupIx) (g : Option Group) : (s.setGroup gi g).pending = s.pending := by simp [State.setGroup]

@[simp] theorem State.removeBinding_restart (s : State) (k : LoopIx) (h : Handle) : (s.removeBinding k h).restart = s.restart := by simp [State.removeBinding]
@[simp] theorem State.removeBinding_present (s : State) (k : LoopIx) (h : Handle) : (s.removeBinding k h).present = s.present := by simp [State.removeBinding]
@[simp] theorem State.removeBinding_station (s : State) (k : LoopIx) (h : Handle) : (s.removeBinding k h).station = s.station := by simp [State.removeBinding]
@[simp] theorem State.removeBinding_plan (s : State) (k : LoopIx) (h : Handle) : (s.removeBinding k h).plan = s.plan := by simp [State.removeBinding]
@[simp] theorem State.removeBinding_loops (s : State) (k : LoopIx) (h : Handle) : (s.removeBinding k h).loops = s.loops := by simp [State.removeBinding]
@[simp] theorem State.removeBinding_switch (s : State) (k : LoopIx) (h : Handle) : (s.removeBinding k h).switch = s.switch := by simp [State.removeBinding]
@[simp] theorem State.removeBinding_notices (s : State) (k : LoopIx) (h : Handle) : (s.removeBinding k h).notices = s.notices := by simp [State.removeBinding]
@[simp] theorem State.removeBinding_maint (s : State) (k : LoopIx) (h : Handle) : (s.removeBinding k h).maint = s.maint := by simp [State.removeBinding]
@[simp] theorem State.removeBinding_links (s : State) (k : LoopIx) (h : Handle) : (s.removeBinding k h).links = s.links := by simp [State.removeBinding]
@[simp] theorem State.removeBinding_pending (s : State) (k : LoopIx) (h : Handle) : (s.removeBinding k h).pending = s.pending := by simp [State.removeBinding]

@[simp] theorem State.targetBecomesCurrent_restart (s : State) (k : LoopIx) (h : Handle) : (s.targetBecomesCurrent k h).restart = s.restart := by simp [State.targetBecomesCurrent]
@[simp] theorem State.targetBecomesCurrent_present (s : State) (k : LoopIx) (h : Handle) : (s.targetBecomesCurrent k h).present = s.present := by simp [State.targetBecomesCurrent]
@[simp] theorem State.targetBecomesCurrent_station (s : State) (k : LoopIx) (h : Handle) : (s.targetBecomesCurrent k h).station = s.station := by simp [State.targetBecomesCurrent]
@[simp] theorem State.targetBecomesCurrent_plan (s : State) (k : LoopIx) (h : Handle) : (s.targetBecomesCurrent k h).plan = s.plan := by simp [State.targetBecomesCurrent]
@[simp] theorem State.targetBecomesCurrent_loops (s : State) (k : LoopIx) (h : Handle) : (s.targetBecomesCurrent k h).loops = s.loops := by simp [State.targetBecomesCurrent]
@[simp] theorem State.targetBecomesCurrent_switch (s : State) (k : LoopIx) (h : Handle) : (s.targetBecomesCurrent k h).switch = s.switch := by simp [State.targetBecomesCurrent]
@[simp] theorem State.targetBecomesCurrent_notices (s : State) (k : LoopIx) (h : Handle) : (s.targetBecomesCurrent k h).notices = s.notices := by simp [State.targetBecomesCurrent]
@[simp] theorem State.targetBecomesCurrent_maint (s : State) (k : LoopIx) (h : Handle) : (s.targetBecomesCurrent k h).maint = s.maint := by simp [State.targetBecomesCurrent]
@[simp] theorem State.targetBecomesCurrent_links (s : State) (k : LoopIx) (h : Handle) : (s.targetBecomesCurrent k h).links = s.links := by simp [State.targetBecomesCurrent]
@[simp] theorem State.targetBecomesCurrent_pending (s : State) (k : LoopIx) (h : Handle) : (s.targetBecomesCurrent k h).pending = s.pending := by simp [State.targetBecomesCurrent]

@[simp] theorem State.setBindingDivider_restart (s : State) (k : LoopIx) (h : Handle) (d : Nat) : (s.setBindingDivider k h d).restart = s.restart := by simp [State.setBindingDivider]
@[simp] theorem State.setBindingDivider_present (s : State) (k : LoopIx) (h : Handle) (d : Nat) : (s.setBindingDivider k h d).present = s.present := by simp [State.setBindingDivider]
@[simp] theorem State.setBindingDivider_station (s : State) (k : LoopIx) (h : Handle) (d : Nat) : (s.setBindingDivider k h d).station = s.station := by simp [State.setBindingDivider]
@[simp] theorem State.setBindingDivider_plan (s : State) (k : LoopIx) (h : Handle) (d : Nat) : (s.setBindingDivider k h d).plan = s.plan := by simp [State.setBindingDivider]
@[simp] theorem State.setBindingDivider_loops (s : State) (k : LoopIx) (h : Handle) (d : Nat) : (s.setBindingDivider k h d).loops = s.loops := by simp [State.setBindingDivider]
@[simp] theorem State.setBindingDivider_switch (s : State) (k : LoopIx) (h : Handle) (d : Nat) : (s.setBindingDivider k h d).switch = s.switch := by simp [State.setBindingDivider]
@[simp] theorem State.setBindingDivider_notices (s : State) (k : LoopIx) (h : Handle) (d : Nat) : (s.setBindingDivider k h d).notices = s.notices := by simp [State.setBindingDivider]
@[simp] theorem State.setBindingDivider_maint (s : State) (k : LoopIx) (h : Handle) (d : Nat) : (s.setBindingDivider k h d).maint = s.maint := by simp [State.setBindingDivider]
@[simp] theorem State.setBindingDivider_links (s : State) (k : LoopIx) (h : Handle) (d : Nat) : (s.setBindingDivider k h d).links = s.links := by simp [State.setBindingDivider]
@[simp] theorem State.setBindingDivider_pending (s : State) (k : LoopIx) (h : Handle) (d : Nat) : (s.setBindingDivider k h d).pending = s.pending := by simp [State.setBindingDivider]

@[simp] theorem State.setLoop_restart (s : State) (k : LoopIx) (l : LoopRec) : (s.setLoop k l).restart = s.restart := by simp [State.setLoop]
@[simp] theorem State.setLoop_present (s : State) (k : LoopIx) (l : LoopRec) : (s.setLoop k l).present = s.present := by simp [State.setLoop]
@[simp] theorem State.setLoop_station (s : State) (k : LoopIx) (l : LoopRec) : (s.setLoop k l).station = s.station := by simp [State.setLoop]
@[simp] theorem State.setLoop_plan (s : State) (k : LoopIx) (l : LoopRec) : (s.setLoop k l).plan = s.plan := by simp [State.setLoop]
@[simp] theorem State.setLoop_switch (s : State) (k : LoopIx) (l : LoopRec) : (s.setLoop k l).switch = s.switch := by simp [State.setLoop]
@[simp] theorem State.setLoop_engine (s : State) (k : LoopIx) (l : LoopRec) : (s.setLoop k l).engine = s.engine := by simp [State.setLoop]
@[simp] theorem State.setLoop_notices (s : State) (k : LoopIx) (l : LoopRec) : (s.setLoop k l).notices = s.notices := by simp [State.setLoop]
@[simp] theorem State.setLoop_maint (s : State) (k : LoopIx) (l : LoopRec) : (s.setLoop k l).maint = s.maint := by simp [State.setLoop]
@[simp] theorem State.setLoop_links (s : State) (k : LoopIx) (l : LoopRec) : (s.setLoop k l).links = s.links := by simp [State.setLoop]
@[simp] theorem State.setLoop_pending (s : State) (k : LoopIx) (l : LoopRec) : (s.setLoop k l).pending = s.pending := by simp [State.setLoop]

@[simp] theorem State.setLoopWith_restart (s : State) (k : LoopIx) (x : LoopRec × List LockEvent) : (s.setLoopWith k x).restart = s.restart := by simp [State.setLoopWith]
@[simp] theorem State.setLoopWith_present (s : State) (k : LoopIx) (x : LoopRec × List LockEvent) : (s.setLoopWith k x).present = s.present := by simp [State.setLoopWith]
@[simp] theorem State.setLoopWith_station (s : State) (k : LoopIx) (x : LoopRec × List LockEvent) : (s.setLoopWith k x).station = s.station := by simp [State.setLoopWith]
@[simp] theorem State.setLoopWith_plan (s : State) (k : LoopIx) (x : LoopRec × List LockEvent) : (s.setLoopWith k x).plan = s.plan := by simp [State.setLoopWith]
@[simp] theorem State.setLoopWith_switch (s : State) (k : LoopIx) (x : LoopRec × List LockEvent) : (s.setLoopWith k x).switch = s.switch := by simp [State.setLoopWith]
@[simp] theorem State.setLoopWith_engine (s : State) (k : LoopIx) (x : LoopRec × List LockEvent) : (s.setLoopWith k x).engine = s.engine := by simp [State.setLoopWith]
@[simp] theorem State.setLoopWith_notices (s : State) (k : LoopIx) (x : LoopRec × List LockEvent) : (s.setLoopWith k x).notices = s.notices := by simp [State.setLoopWith]
@[simp] theorem State.setLoopWith_maint (s : State) (k : LoopIx) (x : LoopRec × List LockEvent) : (s.setLoopWith k x).maint = s.maint := by simp [State.setLoopWith]
@[simp] theorem State.setLoopWith_links (s : State) (k : LoopIx) (x : LoopRec × List LockEvent) : (s.setLoopWith k x).links = s.links := by simp [State.setLoopWith]
@[simp] theorem State.setLoopWith_pending (s : State) (k : LoopIx) (x : LoopRec × List LockEvent) : (s.setLoopWith k x).pending = s.pending := by simp [State.setLoopWith]

@[simp] theorem State.setLockEvents_restart (s : State) (k : LoopIx) (l : List LockEvent) : (s.setLockEvents k l).restart = s.restart := by simp [State.setLockEvents]
@[simp] theorem State.setLockEvents_present (s : State) (k : LoopIx) (l : List LockEvent) : (s.setLockEvents k l).present = s.present := by simp [State.setLockEvents]
@[simp] theorem State.setLockEvents_station (s : State) (k : LoopIx) (l : List LockEvent) : (s.setLockEvents k l).station = s.station := by simp [State.setLockEvents]
@[simp] theorem State.setLockEvents_plan (s : State) (k : LoopIx) (l : List LockEvent) : (s.setLockEvents k l).plan = s.plan := by simp [State.setLockEvents]
@[simp] theorem State.setLockEvents_switch (s : State) (k : LoopIx) (l : List LockEvent) : (s.setLockEvents k l).switch = s.switch := by simp [State.setLockEvents]
@[simp] theorem State.setLockEvents_engine (s : State) (k : LoopIx) (l : List LockEvent) : (s.setLockEvents k l).engine = s.engine := by simp [State.setLockEvents]
@[simp] theorem State.setLockEvents_notices (s : State) (k : LoopIx) (l : List LockEvent) : (s.setLockEvents k l).notices = s.notices := by simp [State.setLockEvents]
@[simp] theorem State.setLockEvents_maint (s : State) (k : LoopIx) (l : List LockEvent) : (s.setLockEvents k l).maint = s.maint := by simp [State.setLockEvents]
@[simp] theorem State.setLockEvents_links (s : State) (k : LoopIx) (l : List LockEvent) : (s.setLockEvents k l).links = s.links := by simp [State.setLockEvents]
@[simp] theorem State.setLockEvents_pending (s : State) (k : LoopIx) (l : List LockEvent) : (s.setLockEvents k l).pending = s.pending := by simp [State.setLockEvents]

@[simp] theorem State.markFailed_restart (s : State) (k : LoopIx) (c : FailCause) : (s.markFailed k c).restart = s.restart := by simp [State.markFailed]
@[simp] theorem State.markFailed_present (s : State) (k : LoopIx) (c : FailCause) : (s.markFailed k c).present = s.present := by simp [State.markFailed]
@[simp] theorem State.markFailed_station (s : State) (k : LoopIx) (c : FailCause) : (s.markFailed k c).station = s.station := by simp [State.markFailed]
@[simp] theorem State.markFailed_plan (s : State) (k : LoopIx) (c : FailCause) : (s.markFailed k c).plan = s.plan := by simp [State.markFailed]
@[simp] theorem State.markFailed_switch (s : State) (k : LoopIx) (c : FailCause) : (s.markFailed k c).switch = s.switch := by simp [State.markFailed]
@[simp] theorem State.markFailed_engine (s : State) (k : LoopIx) (c : FailCause) : (s.markFailed k c).engine = s.engine := by simp [State.markFailed]
@[simp] theorem State.markFailed_notices (s : State) (k : LoopIx) (c : FailCause) : (s.markFailed k c).notices = s.notices := by simp [State.markFailed]
@[simp] theorem State.markFailed_maint (s : State) (k : LoopIx) (c : FailCause) : (s.markFailed k c).maint = s.maint := by simp [State.markFailed]
@[simp] theorem State.markFailed_links (s : State) (k : LoopIx) (c : FailCause) : (s.markFailed k c).links = s.links := by simp [State.markFailed]
@[simp] theorem State.markFailed_pending (s : State) (k : LoopIx) (c : FailCause) : (s.markFailed k c).pending = s.pending := by simp [State.markFailed]

@[simp] theorem State.raise_restart (s : State) (p : PortIx) (k : PortKind) : (s.raise p k).restart = s.restart := by simp [State.raise]
@[simp] theorem State.raise_present (s : State) (p : PortIx) (k : PortKind) : (s.raise p k).present = s.present := by simp [State.raise]
@[simp] theorem State.raise_station (s : State) (p : PortIx) (k : PortKind) : (s.raise p k).station = s.station := by simp [State.raise]
@[simp] theorem State.raise_plan (s : State) (p : PortIx) (k : PortKind) : (s.raise p k).plan = s.plan := by simp [State.raise]
@[simp] theorem State.raise_loops (s : State) (p : PortIx) (k : PortKind) : (s.raise p k).loops = s.loops := by simp [State.raise]
@[simp] theorem State.raise_switch (s : State) (p : PortIx) (k : PortKind) : (s.raise p k).switch = s.switch := by simp [State.raise]
@[simp] theorem State.raise_engine (s : State) (p : PortIx) (k : PortKind) : (s.raise p k).engine = s.engine := by simp [State.raise]
@[simp] theorem State.raise_maint (s : State) (p : PortIx) (k : PortKind) : (s.raise p k).maint = s.maint := by simp [State.raise]
@[simp] theorem State.raise_links (s : State) (p : PortIx) (k : PortKind) : (s.raise p k).links = s.links := by simp [State.raise]
@[simp] theorem State.raise_pending (s : State) (p : PortIx) (k : PortKind) : (s.raise p k).pending = s.pending := by simp [State.raise]

@[simp] theorem State.withNotices_restart (s : State) (f : NoticeUnit → NoticeUnit) : (s.withNotices f).restart = s.restart := by simp [State.withNotices]
@[simp] theorem State.withNotices_present (s : State) (f : NoticeUnit → NoticeUnit) : (s.withNotices f).present = s.present := by simp [State.withNotices]
@[simp] theorem State.withNotices_station (s : State) (f : NoticeUnit → NoticeUnit) : (s.withNotices f).station = s.station := by simp [State.withNotices]
@[simp] theorem State.withNotices_plan (s : State) (f : NoticeUnit → NoticeUnit) : (s.withNotices f).plan = s.plan := by simp [State.withNotices]
@[simp] theorem State.withNotices_loops (s : State) (f : NoticeUnit → NoticeUnit) : (s.withNotices f).loops = s.loops := by simp [State.withNotices]
@[simp] theorem State.withNotices_switch (s : State) (f : NoticeUnit → NoticeUnit) : (s.withNotices f).switch = s.switch := by simp [State.withNotices]
@[simp] theorem State.withNotices_engine (s : State) (f : NoticeUnit → NoticeUnit) : (s.withNotices f).engine = s.engine := by simp [State.withNotices]
@[simp] theorem State.withNotices_maint (s : State) (f : NoticeUnit → NoticeUnit) : (s.withNotices f).maint = s.maint := by simp [State.withNotices]
@[simp] theorem State.withNotices_links (s : State) (f : NoticeUnit → NoticeUnit) : (s.withNotices f).links = s.links := by simp [State.withNotices]
@[simp] theorem State.withNotices_pending (s : State) (f : NoticeUnit → NoticeUnit) : (s.withNotices f).pending = s.pending := by simp [State.withNotices]

@[simp] theorem State.raiseCause_restart (s : State) (c : Cause) : (s.raiseCause c).restart = s.restart := by simp [State.raiseCause]
@[simp] theorem State.raiseCause_present (s : State) (c : Cause) : (s.raiseCause c).present = s.present := by simp [State.raiseCause]
@[simp] theorem State.raiseCause_station (s : State) (c : Cause) : (s.raiseCause c).station = s.station := by simp [State.raiseCause]
@[simp] theorem State.raiseCause_plan (s : State) (c : Cause) : (s.raiseCause c).plan = s.plan := by simp [State.raiseCause]
@[simp] theorem State.raiseCause_loops (s : State) (c : Cause) : (s.raiseCause c).loops = s.loops := by simp [State.raiseCause]
@[simp] theorem State.raiseCause_switch (s : State) (c : Cause) : (s.raiseCause c).switch = s.switch := by simp [State.raiseCause]
@[simp] theorem State.raiseCause_engine (s : State) (c : Cause) : (s.raiseCause c).engine = s.engine := by simp [State.raiseCause]
@[simp] theorem State.raiseCause_notices (s : State) (c : Cause) : (s.raiseCause c).notices = s.notices := by simp [State.raiseCause]
@[simp] theorem State.raiseCause_links (s : State) (c : Cause) : (s.raiseCause c).links = s.links := by simp [State.raiseCause]
@[simp] theorem State.raiseCause_pending (s : State) (c : Cause) : (s.raiseCause c).pending = s.pending := by simp [State.raiseCause]

@[simp] theorem State.fillLatch_restart (s : State) : (s.fillLatch).restart = s.restart := by simp [State.fillLatch]
@[simp] theorem State.fillLatch_present (s : State) : (s.fillLatch).present = s.present := by simp [State.fillLatch]
@[simp] theorem State.fillLatch_station (s : State) : (s.fillLatch).station = s.station := by simp [State.fillLatch]
@[simp] theorem State.fillLatch_plan (s : State) : (s.fillLatch).plan = s.plan := by simp [State.fillLatch]
@[simp] theorem State.fillLatch_loops (s : State) : (s.fillLatch).loops = s.loops := by simp [State.fillLatch]
@[simp] theorem State.fillLatch_switch (s : State) : (s.fillLatch).switch = s.switch := by simp [State.fillLatch]
@[simp] theorem State.fillLatch_engine (s : State) : (s.fillLatch).engine = s.engine := by simp [State.fillLatch]
@[simp] theorem State.fillLatch_notices (s : State) : (s.fillLatch).notices = s.notices := by simp [State.fillLatch]
@[simp] theorem State.fillLatch_links (s : State) : (s.fillLatch).links = s.links := by simp [State.fillLatch]
@[simp] theorem State.fillLatch_pending (s : State) : (s.fillLatch).pending = s.pending := by simp [State.fillLatch]

@[simp] theorem State.setBuffers_restart (s : State) (w : Option (List Byte)) (r : Option Response) : (s.setBuffers w r).restart = s.restart := by simp [State.setBuffers]
@[simp] theorem State.setBuffers_present (s : State) (w : Option (List Byte)) (r : Option Response) : (s.setBuffers w r).present = s.present := by simp [State.setBuffers]
@[simp] theorem State.setBuffers_station (s : State) (w : Option (List Byte)) (r : Option Response) : (s.setBuffers w r).station = s.station := by simp [State.setBuffers]
@[simp] theorem State.setBuffers_plan (s : State) (w : Option (List Byte)) (r : Option Response) : (s.setBuffers w r).plan = s.plan := by simp [State.setBuffers]
@[simp] theorem State.setBuffers_loops (s : State) (w : Option (List Byte)) (r : Option Response) : (s.setBuffers w r).loops = s.loops := by simp [State.setBuffers]
@[simp] theorem State.setBuffers_switch (s : State) (w : Option (List Byte)) (r : Option Response) : (s.setBuffers w r).switch = s.switch := by simp [State.setBuffers]
@[simp] theorem State.setBuffers_engine (s : State) (w : Option (List Byte)) (r : Option Response) : (s.setBuffers w r).engine = s.engine := by simp [State.setBuffers]
@[simp] theorem State.setBuffers_notices (s : State) (w : Option (List Byte)) (r : Option Response) : (s.setBuffers w r).notices = s.notices := by simp [State.setBuffers]
@[simp] theorem State.setBuffers_links (s : State) (w : Option (List Byte)) (r : Option Response) : (s.setBuffers w r).links = s.links := by simp [State.setBuffers]
@[simp] theorem State.setBuffers_pending (s : State) (w : Option (List Byte)) (r : Option Response) : (s.setBuffers w r).pending = s.pending := by simp [State.setBuffers]

@[simp] theorem State.requestSwitch_restart (s : State) (p : PortIx) (x : Source) : (s.requestSwitch p x).restart = s.restart := by simp [State.requestSwitch]
@[simp] theorem State.requestSwitch_present (s : State) (p : PortIx) (x : Source) : (s.requestSwitch p x).present = s.present := by simp [State.requestSwitch]
@[simp] theorem State.requestSwitch_station (s : State) (p : PortIx) (x : Source) : (s.requestSwitch p x).station = s.station := by simp [State.requestSwitch]
@[simp] theorem State.requestSwitch_plan (s : State) (p : PortIx) (x : Source) : (s.requestSwitch p x).plan = s.plan := by simp [State.requestSwitch]
@[simp] theorem State.requestSwitch_loops (s : State) (p : PortIx) (x : Source) : (s.requestSwitch p x).loops = s.loops := by simp [State.requestSwitch]
@[simp] theorem State.requestSwitch_engine (s : State) (p : PortIx) (x : Source) : (s.requestSwitch p x).engine = s.engine := by simp [State.requestSwitch]
@[simp] theorem State.requestSwitch_notices (s : State) (p : PortIx) (x : Source) : (s.requestSwitch p x).notices = s.notices := by simp [State.requestSwitch]
@[simp] theorem State.requestSwitch_maint (s : State) (p : PortIx) (x : Source) : (s.requestSwitch p x).maint = s.maint := by simp [State.requestSwitch]
@[simp] theorem State.requestSwitch_links (s : State) (p : PortIx) (x : Source) : (s.requestSwitch p x).links = s.links := by simp [State.requestSwitch]
@[simp] theorem State.requestSwitch_pending (s : State) (p : PortIx) (x : Source) : (s.requestSwitch p x).pending = s.pending := by simp [State.requestSwitch]

@[simp] theorem State.giveDivider_restart (s : State) (g : GroupIx) (k : LoopIx) (v : Nat) : (s.giveDivider g k v).restart = s.restart := by simp [State.giveDivider]
@[simp] theorem State.giveDivider_present (s : State) (g : GroupIx) (k : LoopIx) (v : Nat) : (s.giveDivider g k v).present = s.present := by simp [State.giveDivider]
@[simp] theorem State.giveDivider_station (s : State) (g : GroupIx) (k : LoopIx) (v : Nat) : (s.giveDivider g k v).station = s.station := by simp [State.giveDivider]
@[simp] theorem State.giveDivider_plan (s : State) (g : GroupIx) (k : LoopIx) (v : Nat) : (s.giveDivider g k v).plan = s.plan := by simp [State.giveDivider]
@[simp] theorem State.giveDivider_loops (s : State) (g : GroupIx) (k : LoopIx) (v : Nat) : (s.giveDivider g k v).loops = s.loops := by simp [State.giveDivider]
@[simp] theorem State.giveDivider_engine (s : State) (g : GroupIx) (k : LoopIx) (v : Nat) : (s.giveDivider g k v).engine = s.engine := by simp [State.giveDivider]
@[simp] theorem State.giveDivider_notices (s : State) (g : GroupIx) (k : LoopIx) (v : Nat) : (s.giveDivider g k v).notices = s.notices := by simp [State.giveDivider]
@[simp] theorem State.giveDivider_maint (s : State) (g : GroupIx) (k : LoopIx) (v : Nat) : (s.giveDivider g k v).maint = s.maint := by simp [State.giveDivider]
@[simp] theorem State.giveDivider_links (s : State) (g : GroupIx) (k : LoopIx) (v : Nat) : (s.giveDivider g k v).links = s.links := by simp [State.giveDivider]
@[simp] theorem State.giveDivider_pending (s : State) (g : GroupIx) (k : LoopIx) (v : Nat) : (s.giveDivider g k v).pending = s.pending := by simp [State.giveDivider]

@[simp] theorem State.releaseDivider_restart (s : State) (g : GroupIx) : (s.releaseDivider g).restart = s.restart := by simp [State.releaseDivider]
@[simp] theorem State.releaseDivider_present (s : State) (g : GroupIx) : (s.releaseDivider g).present = s.present := by simp [State.releaseDivider]
@[simp] theorem State.releaseDivider_station (s : State) (g : GroupIx) : (s.releaseDivider g).station = s.station := by simp [State.releaseDivider]
@[simp] theorem State.releaseDivider_plan (s : State) (g : GroupIx) : (s.releaseDivider g).plan = s.plan := by simp [State.releaseDivider]
@[simp] theorem State.releaseDivider_loops (s : State) (g : GroupIx) : (s.releaseDivider g).loops = s.loops := by simp [State.releaseDivider]
@[simp] theorem State.releaseDivider_engine (s : State) (g : GroupIx) : (s.releaseDivider g).engine = s.engine := by simp [State.releaseDivider]
@[simp] theorem State.releaseDivider_notices (s : State) (g : GroupIx) : (s.releaseDivider g).notices = s.notices := by simp [State.releaseDivider]
@[simp] theorem State.releaseDivider_maint (s : State) (g : GroupIx) : (s.releaseDivider g).maint = s.maint := by simp [State.releaseDivider]
@[simp] theorem State.releaseDivider_links (s : State) (g : GroupIx) : (s.releaseDivider g).links = s.links := by simp [State.releaseDivider]
@[simp] theorem State.releaseDivider_pending (s : State) (g : GroupIx) : (s.releaseDivider g).pending = s.pending := by simp [State.releaseDivider]

@[simp] theorem State.portsLoopIdle_restart (s : State) (k : LoopIx) : (s.portsLoopIdle k).restart = s.restart := by simp [State.portsLoopIdle]
@[simp] theorem State.portsLoopIdle_present (s : State) (k : LoopIx) : (s.portsLoopIdle k).present = s.present := by simp [State.portsLoopIdle]
@[simp] theorem State.portsLoopIdle_station (s : State) (k : LoopIx) : (s.portsLoopIdle k).station = s.station := by simp [State.portsLoopIdle]
@[simp] theorem State.portsLoopIdle_plan (s : State) (k : LoopIx) : (s.portsLoopIdle k).plan = s.plan := by simp [State.portsLoopIdle]
@[simp] theorem State.portsLoopIdle_loops (s : State) (k : LoopIx) : (s.portsLoopIdle k).loops = s.loops := by simp [State.portsLoopIdle]
@[simp] theorem State.portsLoopIdle_engine (s : State) (k : LoopIx) : (s.portsLoopIdle k).engine = s.engine := by simp [State.portsLoopIdle]
@[simp] theorem State.portsLoopIdle_notices (s : State) (k : LoopIx) : (s.portsLoopIdle k).notices = s.notices := by simp [State.portsLoopIdle]
@[simp] theorem State.portsLoopIdle_maint (s : State) (k : LoopIx) : (s.portsLoopIdle k).maint = s.maint := by simp [State.portsLoopIdle]
@[simp] theorem State.portsLoopIdle_links (s : State) (k : LoopIx) : (s.portsLoopIdle k).links = s.links := by simp [State.portsLoopIdle]
@[simp] theorem State.portsLoopIdle_pending (s : State) (k : LoopIx) : (s.portsLoopIdle k).pending = s.pending := by simp [State.portsLoopIdle]

@[simp] theorem State.advancePorts_restart (s : State) : (s.advancePorts).restart = s.restart := by simp [State.advancePorts]
@[simp] theorem State.advancePorts_present (s : State) : (s.advancePorts).present = s.present := by simp [State.advancePorts]
@[simp] theorem State.advancePorts_station (s : State) : (s.advancePorts).station = s.station := by simp [State.advancePorts]
@[simp] theorem State.advancePorts_plan (s : State) : (s.advancePorts).plan = s.plan := by simp [State.advancePorts]
@[simp] theorem State.advancePorts_loops (s : State) : (s.advancePorts).loops = s.loops := by simp [State.advancePorts]
@[simp] theorem State.advancePorts_engine (s : State) : (s.advancePorts).engine = s.engine := by simp [State.advancePorts]
@[simp] theorem State.advancePorts_notices (s : State) : (s.advancePorts).notices = s.notices := by simp [State.advancePorts]
@[simp] theorem State.advancePorts_maint (s : State) : (s.advancePorts).maint = s.maint := by simp [State.advancePorts]
@[simp] theorem State.advancePorts_links (s : State) : (s.advancePorts).links = s.links := by simp [State.advancePorts]
@[simp] theorem State.advancePorts_pending (s : State) : (s.advancePorts).pending = s.pending := by simp [State.advancePorts]

@[simp] theorem State.atPort_restart (s : State) (p : PortIx) (f : PortRec → PortStep) : (s.atPort p f).restart = s.restart := by simp [State.atPort]
@[simp] theorem State.atPort_present (s : State) (p : PortIx) (f : PortRec → PortStep) : (s.atPort p f).present = s.present := by simp [State.atPort]
@[simp] theorem State.atPort_station (s : State) (p : PortIx) (f : PortRec → PortStep) : (s.atPort p f).station = s.station := by simp [State.atPort]
@[simp] theorem State.atPort_plan (s : State) (p : PortIx) (f : PortRec → PortStep) : (s.atPort p f).plan = s.plan := by simp [State.atPort]
@[simp] theorem State.atPort_loops (s : State) (p : PortIx) (f : PortRec → PortStep) : (s.atPort p f).loops = s.loops := by simp [State.atPort]
@[simp] theorem State.atPort_engine (s : State) (p : PortIx) (f : PortRec → PortStep) : (s.atPort p f).engine = s.engine := by simp [State.atPort]
@[simp] theorem State.atPort_notices (s : State) (p : PortIx) (f : PortRec → PortStep) : (s.atPort p f).notices = s.notices := by simp [State.atPort]
@[simp] theorem State.atPort_maint (s : State) (p : PortIx) (f : PortRec → PortStep) : (s.atPort p f).maint = s.maint := by simp [State.atPort]
@[simp] theorem State.atPort_links (s : State) (p : PortIx) (f : PortRec → PortStep) : (s.atPort p f).links = s.links := by simp [State.atPort]
@[simp] theorem State.atPort_pending (s : State) (p : PortIx) (f : PortRec → PortStep) : (s.atPort p f).pending = s.pending := by simp [State.atPort]

@[simp] theorem State.setReports_restart (s : State) (p : PortIx) (l : List Report) : (s.setReports p l).restart = s.restart := by simp [State.setReports]
@[simp] theorem State.setReports_present (s : State) (p : PortIx) (l : List Report) : (s.setReports p l).present = s.present := by simp [State.setReports]
@[simp] theorem State.setReports_station (s : State) (p : PortIx) (l : List Report) : (s.setReports p l).station = s.station := by simp [State.setReports]
@[simp] theorem State.setReports_plan (s : State) (p : PortIx) (l : List Report) : (s.setReports p l).plan = s.plan := by simp [State.setReports]
@[simp] theorem State.setReports_loops (s : State) (p : PortIx) (l : List Report) : (s.setReports p l).loops = s.loops := by simp [State.setReports]
@[simp] theorem State.setReports_engine (s : State) (p : PortIx) (l : List Report) : (s.setReports p l).engine = s.engine := by simp [State.setReports]
@[simp] theorem State.setReports_notices (s : State) (p : PortIx) (l : List Report) : (s.setReports p l).notices = s.notices := by simp [State.setReports]
@[simp] theorem State.setReports_maint (s : State) (p : PortIx) (l : List Report) : (s.setReports p l).maint = s.maint := by simp [State.setReports]
@[simp] theorem State.setReports_links (s : State) (p : PortIx) (l : List Report) : (s.setReports p l).links = s.links := by simp [State.setReports]
@[simp] theorem State.setReports_pending (s : State) (p : PortIx) (l : List Report) : (s.setReports p l).pending = s.pending := by simp [State.setReports]

@[simp] theorem State.updLink_restart (s : State) (slot : SlotIx) (f : LinkRec → LinkRec) : (s.updLink slot f).restart = s.restart := by simp [State.updLink]
@[simp] theorem State.updLink_present (s : State) (slot : SlotIx) (f : LinkRec → LinkRec) : (s.updLink slot f).present = s.present := by simp [State.updLink]
@[simp] theorem State.updLink_station (s : State) (slot : SlotIx) (f : LinkRec → LinkRec) : (s.updLink slot f).station = s.station := by simp [State.updLink]
@[simp] theorem State.updLink_plan (s : State) (slot : SlotIx) (f : LinkRec → LinkRec) : (s.updLink slot f).plan = s.plan := by simp [State.updLink]
@[simp] theorem State.updLink_loops (s : State) (slot : SlotIx) (f : LinkRec → LinkRec) : (s.updLink slot f).loops = s.loops := by simp [State.updLink]
@[simp] theorem State.updLink_switch (s : State) (slot : SlotIx) (f : LinkRec → LinkRec) : (s.updLink slot f).switch = s.switch := by simp [State.updLink]
@[simp] theorem State.updLink_engine (s : State) (slot : SlotIx) (f : LinkRec → LinkRec) : (s.updLink slot f).engine = s.engine := by simp [State.updLink]
@[simp] theorem State.updLink_notices (s : State) (slot : SlotIx) (f : LinkRec → LinkRec) : (s.updLink slot f).notices = s.notices := by simp [State.updLink]
@[simp] theorem State.updLink_maint (s : State) (slot : SlotIx) (f : LinkRec → LinkRec) : (s.updLink slot f).maint = s.maint := by simp [State.updLink]
@[simp] theorem State.updLink_pending (s : State) (slot : SlotIx) (f : LinkRec → LinkRec) : (s.updLink slot f).pending = s.pending := by simp [State.updLink]

@[simp] theorem State.hunt_restart (s : State) (slot : SlotIx) : (s.hunt slot).restart = s.restart := by simp [State.hunt]
@[simp] theorem State.hunt_present (s : State) (slot : SlotIx) : (s.hunt slot).present = s.present := by simp [State.hunt]
@[simp] theorem State.hunt_station (s : State) (slot : SlotIx) : (s.hunt slot).station = s.station := by simp [State.hunt]
@[simp] theorem State.hunt_plan (s : State) (slot : SlotIx) : (s.hunt slot).plan = s.plan := by simp [State.hunt]
@[simp] theorem State.hunt_loops (s : State) (slot : SlotIx) : (s.hunt slot).loops = s.loops := by simp [State.hunt]
@[simp] theorem State.hunt_switch (s : State) (slot : SlotIx) : (s.hunt slot).switch = s.switch := by simp [State.hunt]
@[simp] theorem State.hunt_engine (s : State) (slot : SlotIx) : (s.hunt slot).engine = s.engine := by simp [State.hunt]
@[simp] theorem State.hunt_notices (s : State) (slot : SlotIx) : (s.hunt slot).notices = s.notices := by simp [State.hunt]
@[simp] theorem State.hunt_maint (s : State) (slot : SlotIx) : (s.hunt slot).maint = s.maint := by simp [State.hunt]
@[simp] theorem State.hunt_pending (s : State) (slot : SlotIx) : (s.hunt slot).pending = s.pending := by simp [State.hunt]

@[simp] theorem State.holdBusy_restart (s : State) (slot : SlotIx) (tag : Tag) : (s.holdBusy slot tag).restart = s.restart := by simp [State.holdBusy]
@[simp] theorem State.holdBusy_present (s : State) (slot : SlotIx) (tag : Tag) : (s.holdBusy slot tag).present = s.present := by simp [State.holdBusy]
@[simp] theorem State.holdBusy_station (s : State) (slot : SlotIx) (tag : Tag) : (s.holdBusy slot tag).station = s.station := by simp [State.holdBusy]
@[simp] theorem State.holdBusy_plan (s : State) (slot : SlotIx) (tag : Tag) : (s.holdBusy slot tag).plan = s.plan := by simp [State.holdBusy]
@[simp] theorem State.holdBusy_loops (s : State) (slot : SlotIx) (tag : Tag) : (s.holdBusy slot tag).loops = s.loops := by simp [State.holdBusy]
@[simp] theorem State.holdBusy_switch (s : State) (slot : SlotIx) (tag : Tag) : (s.holdBusy slot tag).switch = s.switch := by simp [State.holdBusy]
@[simp] theorem State.holdBusy_engine (s : State) (slot : SlotIx) (tag : Tag) : (s.holdBusy slot tag).engine = s.engine := by simp [State.holdBusy]
@[simp] theorem State.holdBusy_notices (s : State) (slot : SlotIx) (tag : Tag) : (s.holdBusy slot tag).notices = s.notices := by simp [State.holdBusy]
@[simp] theorem State.holdBusy_maint (s : State) (slot : SlotIx) (tag : Tag) : (s.holdBusy slot tag).maint = s.maint := by simp [State.holdBusy]
@[simp] theorem State.holdBusy_pending (s : State) (slot : SlotIx) (tag : Tag) : (s.holdBusy slot tag).pending = s.pending := by simp [State.holdBusy]

@[simp] theorem State.answer_restart (s : State) (slot : SlotIx) (tag : Tag) (a : Answer) : (s.answer slot tag a).restart = s.restart := by simp [State.answer]
@[simp] theorem State.answer_present (s : State) (slot : SlotIx) (tag : Tag) (a : Answer) : (s.answer slot tag a).present = s.present := by simp [State.answer]
@[simp] theorem State.answer_station (s : State) (slot : SlotIx) (tag : Tag) (a : Answer) : (s.answer slot tag a).station = s.station := by simp [State.answer]
@[simp] theorem State.answer_plan (s : State) (slot : SlotIx) (tag : Tag) (a : Answer) : (s.answer slot tag a).plan = s.plan := by simp [State.answer]
@[simp] theorem State.answer_loops (s : State) (slot : SlotIx) (tag : Tag) (a : Answer) : (s.answer slot tag a).loops = s.loops := by simp [State.answer]
@[simp] theorem State.answer_switch (s : State) (slot : SlotIx) (tag : Tag) (a : Answer) : (s.answer slot tag a).switch = s.switch := by simp [State.answer]
@[simp] theorem State.answer_engine (s : State) (slot : SlotIx) (tag : Tag) (a : Answer) : (s.answer slot tag a).engine = s.engine := by simp [State.answer]
@[simp] theorem State.answer_notices (s : State) (slot : SlotIx) (tag : Tag) (a : Answer) : (s.answer slot tag a).notices = s.notices := by simp [State.answer]
@[simp] theorem State.answer_maint (s : State) (slot : SlotIx) (tag : Tag) (a : Answer) : (s.answer slot tag a).maint = s.maint := by simp [State.answer]
@[simp] theorem State.answer_pending (s : State) (slot : SlotIx) (tag : Tag) (a : Answer) : (s.answer slot tag a).pending = s.pending := by simp [State.answer]

@[simp] theorem State.setPresent_restart (s : State) (slot : SlotIx) (level : Bool) : (s.setPresent slot level).restart = s.restart := by simp [State.setPresent]
@[simp] theorem State.setPresent_station (s : State) (slot : SlotIx) (level : Bool) : (s.setPresent slot level).station = s.station := by simp [State.setPresent]
@[simp] theorem State.setPresent_plan (s : State) (slot : SlotIx) (level : Bool) : (s.setPresent slot level).plan = s.plan := by simp [State.setPresent]
@[simp] theorem State.setPresent_loops (s : State) (slot : SlotIx) (level : Bool) : (s.setPresent slot level).loops = s.loops := by simp [State.setPresent]
@[simp] theorem State.setPresent_switch (s : State) (slot : SlotIx) (level : Bool) : (s.setPresent slot level).switch = s.switch := by simp [State.setPresent]
@[simp] theorem State.setPresent_engine (s : State) (slot : SlotIx) (level : Bool) : (s.setPresent slot level).engine = s.engine := by simp [State.setPresent]
@[simp] theorem State.setPresent_notices (s : State) (slot : SlotIx) (level : Bool) : (s.setPresent slot level).notices = s.notices := by simp [State.setPresent]
@[simp] theorem State.setPresent_maint (s : State) (slot : SlotIx) (level : Bool) : (s.setPresent slot level).maint = s.maint := by simp [State.setPresent]
@[simp] theorem State.setPresent_links (s : State) (slot : SlotIx) (level : Bool) : (s.setPresent slot level).links = s.links := by simp [State.setPresent]
@[simp] theorem State.setPresent_pending (s : State) (slot : SlotIx) (level : Bool) : (s.setPresent slot level).pending = s.pending := by simp [State.setPresent]

@[simp] theorem State.evaluateRestore_restart (s : State) : (s.evaluateRestore).restart = s.restart := by simp [State.evaluateRestore]
@[simp] theorem State.evaluateRestore_present (s : State) : (s.evaluateRestore).present = s.present := by simp [State.evaluateRestore]
@[simp] theorem State.evaluateRestore_plan (s : State) : (s.evaluateRestore).plan = s.plan := by simp [State.evaluateRestore]
@[simp] theorem State.evaluateRestore_loops (s : State) : (s.evaluateRestore).loops = s.loops := by simp [State.evaluateRestore]
@[simp] theorem State.evaluateRestore_switch (s : State) : (s.evaluateRestore).switch = s.switch := by simp [State.evaluateRestore]
@[simp] theorem State.evaluateRestore_engine (s : State) : (s.evaluateRestore).engine = s.engine := by simp [State.evaluateRestore]
@[simp] theorem State.evaluateRestore_notices (s : State) : (s.evaluateRestore).notices = s.notices := by simp [State.evaluateRestore]
@[simp] theorem State.evaluateRestore_maint (s : State) : (s.evaluateRestore).maint = s.maint := by simp [State.evaluateRestore]
@[simp] theorem State.evaluateRestore_links (s : State) : (s.evaluateRestore).links = s.links := by simp [State.evaluateRestore]
@[simp] theorem State.evaluateRestore_pending (s : State) : (s.evaluateRestore).pending = s.pending := by simp [State.evaluateRestore]

@[simp] theorem State.addCause_present (s : State) (r : RestartCause) : (s.addCause r).present = s.present := by simp [State.addCause]
@[simp] theorem State.addCause_station (s : State) (r : RestartCause) : (s.addCause r).station = s.station := by simp [State.addCause]
@[simp] theorem State.addCause_plan (s : State) (r : RestartCause) : (s.addCause r).plan = s.plan := by simp [State.addCause]
@[simp] theorem State.addCause_loops (s : State) (r : RestartCause) : (s.addCause r).loops = s.loops := by simp [State.addCause]
@[simp] theorem State.addCause_switch (s : State) (r : RestartCause) : (s.addCause r).switch = s.switch := by simp [State.addCause]
@[simp] theorem State.addCause_engine (s : State) (r : RestartCause) : (s.addCause r).engine = s.engine := by simp [State.addCause]
@[simp] theorem State.addCause_notices (s : State) (r : RestartCause) : (s.addCause r).notices = s.notices := by simp [State.addCause]
@[simp] theorem State.addCause_maint (s : State) (r : RestartCause) : (s.addCause r).maint = s.maint := by simp [State.addCause]
@[simp] theorem State.addCause_links (s : State) (r : RestartCause) : (s.addCause r).links = s.links := by simp [State.addCause]
@[simp] theorem State.addCause_pending (s : State) (r : RestartCause) : (s.addCause r).pending = s.pending := by simp [State.addCause]

@[simp] theorem State.holdPanel_present (s : State) (b : Bool) : (s.holdPanel b).present = s.present := by simp [State.holdPanel]
@[simp] theorem State.holdPanel_station (s : State) (b : Bool) : (s.holdPanel b).station = s.station := by simp [State.holdPanel]
@[simp] theorem State.holdPanel_plan (s : State) (b : Bool) : (s.holdPanel b).plan = s.plan := by simp [State.holdPanel]
@[simp] theorem State.holdPanel_loops (s : State) (b : Bool) : (s.holdPanel b).loops = s.loops := by simp [State.holdPanel]
@[simp] theorem State.holdPanel_switch (s : State) (b : Bool) : (s.holdPanel b).switch = s.switch := by simp [State.holdPanel]
@[simp] theorem State.holdPanel_engine (s : State) (b : Bool) : (s.holdPanel b).engine = s.engine := by simp [State.holdPanel]
@[simp] theorem State.holdPanel_notices (s : State) (b : Bool) : (s.holdPanel b).notices = s.notices := by simp [State.holdPanel]
@[simp] theorem State.holdPanel_maint (s : State) (b : Bool) : (s.holdPanel b).maint = s.maint := by simp [State.holdPanel]
@[simp] theorem State.holdPanel_links (s : State) (b : Bool) : (s.holdPanel b).links = s.links := by simp [State.holdPanel]
@[simp] theorem State.holdPanel_pending (s : State) (b : Bool) : (s.holdPanel b).pending = s.pending := by simp [State.holdPanel]

@[simp] theorem State.holdChassis_present (s : State) (b : Bool) : (s.holdChassis b).present = s.present := by simp [State.holdChassis]
@[simp] theorem State.holdChassis_station (s : State) (b : Bool) : (s.holdChassis b).station = s.station := by simp [State.holdChassis]
@[simp] theorem State.holdChassis_plan (s : State) (b : Bool) : (s.holdChassis b).plan = s.plan := by simp [State.holdChassis]
@[simp] theorem State.holdChassis_loops (s : State) (b : Bool) : (s.holdChassis b).loops = s.loops := by simp [State.holdChassis]
@[simp] theorem State.holdChassis_switch (s : State) (b : Bool) : (s.holdChassis b).switch = s.switch := by simp [State.holdChassis]
@[simp] theorem State.holdChassis_engine (s : State) (b : Bool) : (s.holdChassis b).engine = s.engine := by simp [State.holdChassis]
@[simp] theorem State.holdChassis_notices (s : State) (b : Bool) : (s.holdChassis b).notices = s.notices := by simp [State.holdChassis]
@[simp] theorem State.holdChassis_maint (s : State) (b : Bool) : (s.holdChassis b).maint = s.maint := by simp [State.holdChassis]
@[simp] theorem State.holdChassis_links (s : State) (b : Bool) : (s.holdChassis b).links = s.links := by simp [State.holdChassis]
@[simp] theorem State.holdChassis_pending (s : State) (b : Bool) : (s.holdChassis b).pending = s.pending := by simp [State.holdChassis]

end Sys2Proof.Machine
end

