-- ==== Sys2Proof/Laws/Engine.lean ====
section
/-! SUPPORT. What an action of the grant engine can do: a path of elementary updates, one lemma for each shared operation; and what every such path leaves unchanged. -/

namespace Sys2Proof.Machine

/-- The elementary updates of which every action of the grant engine is made; an attention cause is raised only where `strands` says so. -/
inductive EngineStep (strands : Bool) : State → State → Prop where
  | grant (s : State) (p : PortIx) (g : Option Grant) : EngineStep strands s (s.setGrant p g)
  | list (s : State) (k : LoopIx) (l : List Binding) : EngineStep strands s (s.setList k l)
  | group (s : State) (gi : GroupIx) (g : Option Group) : EngineStep strands s (s.setGroup gi g)
  | generation (s : State) (p : PortIx) (n : Mod16) :
      EngineStep strands s { s with engine := { s.engine with generations := wr s.engine.generations p n } }
  | notices (s : State) (f : NoticeUnit → NoticeUnit) : EngineStep strands s (s.withNotices f)
  | cause (s : State) (c : Cause) (h : strands = true) : EngineStep strands s (s.raiseCause c)
  | request (s : State) (p : PortIx) (x : Source) : EngineStep strands s (s.requestSwitch p x)
  | give (s : State) (g : GroupIx) (k : LoopIx) (v : Nat) : EngineStep strands s (s.giveDivider g k v)
  | release (s : State) (g : GroupIx) : EngineStep strands s (s.releaseDivider g)
  | reports (s : State) (p : PortIx) (l : List Report) : EngineStep strands s (s.setReports p l)
  | moment (s : State) (n : Nat) (b : Bool) : EngineStep strands s { s with switch := { s.switch with draws := n, sameMoment := b } }
  | events (s : State) (k : LoopIx) (l : List LockEvent) : EngineStep strands s (s.setLockEvents k l)
  | start (s : State) (k : LoopIx) (i : EntryIx) : EngineStep strands s (s.startLoop k i)
  | stop (s : State) (k : LoopIx) : EngineStep strands s (s.stopLoop k)
  | restart (s : State) (k : LoopIx) (i : EntryIx) : EngineStep strands s (s.restartLoop k i)

/-- A path of elementary updates. -/
abbrev EnginePath (strands : Bool) : State → State → Prop := Relation.ReflTransGen (EngineStep strands)

variable {w : Bool}

theorem EnginePath.refl (s : State) : EnginePath w s s := Relation.ReflTransGen.refl

theorem EnginePath.trans {s t u : State} (h : EnginePath w s t) (k : EnginePath w t u) : EnginePath w s u := Relation.ReflTransGen.trans h k

theorem EnginePath.one {s t : State} (h : EngineStep w s t) : EnginePath w s t := Relation.ReflTransGen.single h

/-- A walk of actions each of which is a path is a path. -/
theorem EnginePath.foldl {α : Type} (f : State → α → State) (hf : ∀ s a, EnginePath w s (f s a)) (l : List α) (s : State) :
    EnginePath w s (l.foldl f s) := by
  induction l generalizing s with
  | nil => exact EnginePath.refl s
  | cons a l ih => exact EnginePath.trans (hf s a) (ih (f s a))

/-- A property that every elementary update keeps is kept along a path. -/
theorem EnginePath.keeps {P : State → Prop} (hP : ∀ s t, EngineStep w s t → P s → P t) {s t : State} (h : EnginePath w s t) (hs : P s) : P t := by
  induction h with
  | refl => exact hs
  | tail _ hst ih => exact hP _ _ hst ih

/-! ### Single updates -/

theorem setGrant_path (s : State) (p : PortIx) (g : Option Grant) : EnginePath w s (s.setGrant p g) := .one (.grant s p g)

theorem updGrant_path (s : State) (p : PortIx) (f : Grant → Grant) : EnginePath w s (s.updGrant p f) := .one (.grant s p _)

theorem setList_path (s : State) (k : LoopIx) (l : List Binding) : EnginePath w s (s.setList k l) := .one (.list s k l)

theorem setGroup_path (s : State) (gi : GroupIx) (g : Option Group) : EnginePath w s (s.setGroup gi g) := .one (.group s gi g)

theorem removeBinding_path (s : State) (k : LoopIx) (h : Handle) : EnginePath w s (s.removeBinding k h) := .one (.list s k _)

theorem targetBecomesCurrent_path (s : State) (k : LoopIx) (h : Handle) : EnginePath w s (s.targetBecomesCurrent k h) := .one (.list s k _)

theorem setBindingDivider_path (s : State) (k : LoopIx) (h : Handle) (d : Nat) : EnginePath w s (s.setBindingDivider k h d) :=
  .one (.list s k _)

theorem setLockEvents_path (s : State) (k : LoopIx) (l : List LockEvent) : EnginePath w s (s.setLockEvents k l) := .one (.events s k l)

theorem raise_path (s : State) (p : PortIx) (k : PortKind) : EnginePath w s (s.raise p k) := .one (.notices s (fun u => u.raise p k))

theorem withNotices_path (s : State) (f : NoticeUnit → NoticeUnit) : EnginePath w s (s.withNotices f) := .one (.notices s f)

theorem raiseCause_path (s : State) (c : Cause) : EnginePath true s (s.raiseCause c) := .one (.cause s c rfl)

theorem requestSwitch_path (s : State) (p : PortIx) (x : Source) : EnginePath w s (s.requestSwitch p x) := .one (.request s p x)

theorem giveDivider_path (s : State) (g : GroupIx) (k : LoopIx) (v : Nat) : EnginePath w s (s.giveDivider g k v) := .one (.give s g k v)

theorem releaseDivider_path (s : State) (g : GroupIx) : EnginePath w s (s.releaseDivider g) := .one (.release s g)

theorem setReports_path (s : State) (p : PortIx) (l : List Report) : EnginePath w s (s.setReports p l) := .one (.reports s p l)

theorem startLoop_path (s : State) (k : LoopIx) (i : EntryIx) : EnginePath w s (s.startLoop k i) := .one (.start s k i)

theorem stopLoop_path (s : State) (k : LoopIx) : EnginePath w s (s.stopLoop k) := .one (.stop s k)

theorem restartLoop_path (s : State) (k : LoopIx) (i : EntryIx) : EnginePath w s (s.restartLoop k i) := .one (.restart s k i)

/-! ### Shared operations -/

/-- Either branch of a choice is a path. -/
theorem ite_path {s t u : State} (c : Prop) [Decidable c] (h : EnginePath w s t) (k : EnginePath w s u) : EnginePath w s (if c then t else u) := by
  split
  · exact h
  · exact k

/-- Within an action of several requests another adds nothing (log 6). -/
theorem oneMoment_within (f : State → State) (s : State) (h : s.switch.sameMoment = true) : s.oneMoment f = f s := if_pos h

/-- An action of several requests ends its moment: the next comes at another (log 6). -/
theorem oneMoment_ends (f : State → State) (s : State) (h : s.switch.sameMoment = false) :
    (s.oneMoment f).switch.sameMoment = false ∧
    (s.oneMoment f).switch.draws = (f { s with switch := { s.switch with sameMoment := true } }).switch.draws + 1 := by
  unfold State.oneMoment
  rw [h]
  exact ⟨rfl, rfl⟩

/-- An action of several requests is a path when what it does within its moment is one. -/
theorem oneMoment_path (f : State → State) (hf : ∀ s, EnginePath w s (f s)) (s : State) : EnginePath w s (s.oneMoment f) := by
  unfold State.oneMoment
  exact ite_path _ (hf s) (((EnginePath.one (.moment s s.switch.draws true)).trans (hf _)).trans (.one (.moment _ _ false)))

/-- What holds however the moments stand is carried through an action of several requests. -/
theorem oneMoment_keeps {P Q : State → Prop} (f : State → State) (hf : ∀ s, P s → Q (f s))
    (hP : ∀ s n b, P s → P { s with switch := { s.switch with draws := n, sameMoment := b } })
    (hQ : ∀ s n b, Q s → Q { s with switch := { s.switch with draws := n, sameMoment := b } }) {s : State} (hs : P s) : Q (s.oneMoment f) := by
  unfold State.oneMoment
  split
  · exact hf s hs
  · exact hQ _ _ _ (hf _ (hP s s.switch.draws true hs))

theorem requestByState_path (s : State) (p : PortIx) : EnginePath w s (s.requestByState p) := by
  unfold State.requestByState
  split
  · exact requestSwitch_path s p _
  · exact EnginePath.refl s

theorem raiseRetuned_path (s : State) (p : PortIx) : EnginePath w s (s.raiseRetuned p) :=
  (updGrant_path s p _).trans (raise_path _ p _)

theorem appendBinding_path (s : State) (k : LoopIx) (i : EntryIx) (b : Binding) : EnginePath w s (s.appendBinding k i b) :=
  (setList_path s k _).trans (startLoop_path _ k i)

theorem unbind_path (s : State) (k : LoopIx) (h : Handle) : EnginePath w s (s.unbind k h) := by
  unfold State.unbind
  split
  · exact (removeBinding_path s k h).trans (stopLoop_path _ k)
  · exact removeBinding_path s k h

theorem bindCurrent_path (s : State) (p : PortIx) (b : GrantBinding) : EnginePath w s (s.bindCurrent p b) := by
  unfold State.bindCurrent
  split
  · exact (updGrant_path s p _).trans (appendBinding_path _ _ _ _)
  · exact EnginePath.refl s

theorem dissolveGroup_path (s : State) (gi : GroupIx) : EnginePath w s (s.dissolveGroup gi) := by
  unfold State.dissolveGroup
  split
  · exact ((setGroup_path s gi none).trans (EnginePath.foldl _ (fun s (h : Handle) => updGrant_path s h.port _) _ _)).trans
      (releaseDivider_path _ gi)
  · exact EnginePath.refl s

theorem leaveGroup_path (s : State) (p : PortIx) : EnginePath w s (s.leaveGroup p) := by
  unfold State.leaveGroup
  split
  · exact EnginePath.refl s
  · split
    · exact EnginePath.refl s
    · split
      · exact updGrant_path s p _
      · dsimp only
        split
        · exact ((updGrant_path s p _).trans (setGroup_path _ _ _)).trans (dissolveGroup_path _ _)
        · exact (updGrant_path s p _).trans (setGroup_path _ _ _)

theorem growGroup_path (s : State) (g : Option GroupIx) (d : Nat) : EnginePath w s (s.growGroup g d) := by
  unfold State.growGroup
  split
  · exact EnginePath.refl s
  · split
    · exact setGroup_path s _ _
    · exact EnginePath.refl s

/-- The removal of a grant's bindings in a retirement (01 R21 step 2). -/
theorem unbindAll_path (s : State) (g : Grant) (p : PortIx) :
    EnginePath w s (match g.retune with
      | some (.newLoop t _ _ _) => (match g.binding with
        | some b => s.unbind b.loop (g.handle p)
        | none => s).unbind t.loop (g.handle p)
      | some (.sameLoop _ _ _) => (match g.binding with
        | some b => s.unbind b.loop (g.handle p)
        | none => s)
      | none => (match g.binding with
        | some b => s.unbind b.loop (g.handle p)
        | none => s)) := by
  have hb : EnginePath w s (match g.binding with
      | some b => s.unbind b.loop (g.handle p)
      | none => s) := by
    split
    · exact unbind_path s _ _
    · exact EnginePath.refl s
  split
  · exact hb.trans (unbind_path _ _ _)
  · exact hb
  · exact hb

theorem retire_path (s : State) (p : PortIx) (why : RetireWhy) : EnginePath w s (s.retire p why) := by
  unfold State.retire
  split
  · exact EnginePath.refl s
  · rename_i g _
    exact ((((leaveGroup_path s p).trans (unbindAll_path _ g p)).trans (requestSwitch_path _ p _)).trans (setGrant_path _ p none)).trans
      (withNotices_path _ (fun u => u.retirement p why g.gen))

theorem applyDivider_path (s : State) (p : PortIx) (d f tol : Nat) : EnginePath w s (s.applyDivider p d f tol) := by
  unfold State.applyDivider
  split
  · exact EnginePath.refl s
  · split
    · exact EnginePath.refl s
    · exact (((updGrant_path s p _).trans (setBindingDivider_path _ _ _ _)).trans (growGroup_path _ _ _)).trans (raiseRetuned_path _ p)

theorem commitSameLoop_path (s : State) (p : PortIx) : EnginePath w s (s.commitSameLoop p) := by
  unfold State.commitSameLoop
  split
  · exact EnginePath.refl s
  · split
    · exact applyDivider_path s p _ _ _
    · exact EnginePath.refl s
    · exact EnginePath.refl s

theorem setCutOver_path (s : State) (p : PortIx) (c : CutOver) : EnginePath w s (s.setCutOver p c) := by
  unfold State.setCutOver
  split
  · exact EnginePath.refl s
  · split
    · exact (updGrant_path s p _).trans (requestByState_path _ p)
    · exact EnginePath.refl s
    · exact EnginePath.refl s

/-- The removal of an old binding, if there was one (06 R117 step 2). -/
theorem unbindOld_path (s : State) (b : Option GrantBinding) (h : Handle) :
    EnginePath w s (match b with
      | some b => s.unbind b.loop h
      | none => s) := by
  split
  · exact unbind_path _ _ _
  · exact EnginePath.refl _

theorem commitNewLoop_path (s : State) (p : PortIx) : EnginePath w s (s.commitNewLoop p) := by
  unfold State.commitNewLoop
  split
  · exact EnginePath.refl s
  · split
    · dsimp only
      refine EnginePath.trans ?_ (updGrant_path _ p _)
      refine EnginePath.trans ?_ (ite_path _ (raise_path _ p .holdover) (EnginePath.refl _))
      refine EnginePath.trans ?_ (raiseRetuned_path _ p)
      refine EnginePath.trans ?_ (updGrant_path _ p _)
      exact EnginePath.trans (targetBecomesCurrent_path s _ _) (unbindOld_path _ _ _)
    · exact EnginePath.refl s
    · exact EnginePath.refl s

theorem gainedAt_path (s : State) (b : Binding) : EnginePath w s (s.gainedAt b) := by
  unfold State.gainedAt
  split
  · exact EnginePath.refl s
  · exact setCutOver_path s _ _
  · split
    · exact requestSwitch_path s _ _
    · split
      · exact ((updGrant_path s _ _).trans (raise_path _ _ _)).trans (requestByState_path _ _)
      · exact requestSwitch_path s _ _
    · exact EnginePath.refl s
    · exact EnginePath.refl s

theorem lostAt_path (s : State) (b : Binding) : EnginePath w s (s.lostAt b) := by
  unfold State.lostAt
  split
  · exact EnginePath.refl s
  · split
    · exact setCutOver_path s _ _
    · exact EnginePath.refl s
    · exact EnginePath.refl s
    · exact EnginePath.refl s
  · split
    · exact (((commitSameLoop_path s _).trans (updGrant_path _ _ _)).trans (raise_path _ _ _)).trans (requestByState_path _ _)
    · exact requestByState_path s _
    · exact requestByState_path s _
    · exact EnginePath.refl s

theorem holdoverAt_path (s : State) (b : Binding) : EnginePath w s (s.holdoverAt b) := by
  unfold State.holdoverAt
  split
  · split
    · exact raise_path s _ _
    · exact EnginePath.refl s
  · exact EnginePath.refl s
  · exact EnginePath.refl s

theorem takeLock_path (s : State) (k : LoopIx) (kind : LockEventKind) : EnginePath w s (s.takeLock k kind) := by
  cases kind
  · exact oneMoment_path _ (fun s => EnginePath.foldl _ gainedAt_path _ s) s
  · exact oneMoment_path _ (fun s => EnginePath.foldl _ lostAt_path _ s) s
  · exact EnginePath.foldl _ holdoverAt_path _ s
  · exact EnginePath.refl s

theorem takeNextLock_path (s : State) (k : LoopIx) (kind : LockEventKind) : EnginePath w s (s.takeNextLock k kind) := by
  unfold State.takeNextLock
  split
  · split
    · exact (setLockEvents_path s k _).trans (takeLock_path _ k kind)
    · exact EnginePath.refl s
  · exact EnginePath.refl s

theorem takeAllLocks_path (s : State) (k : LoopIx) : EnginePath w s (s.takeAllLocks k) :=
  (setLockEvents_path s k []).trans (EnginePath.foldl _ (fun s (e : LockEvent) => takeLock_path s k e.kind) _ _)

theorem raiseIfHoldover_path (s : State) (p : PortIx) (g : Grant) : EnginePath w s (s.raiseIfHoldover p g) := by
  unfold State.raiseIfHoldover
  split
  · exact raise_path s p _
  · exact EnginePath.refl s

theorem completionCases_path (s : State) (p : PortIx) (x : Source) (g : Grant) : EnginePath w s (s.completionCases p x g) := by
  unfold State.completionCases
  split
  · dsimp only
    refine EnginePath.trans ?_ (raiseIfHoldover_path _ p g)
    exact EnginePath.trans (updGrant_path s p _) (ite_path _ (raiseRetuned_path _ p) (raise_path _ p _))
  · split
    · exact ((updGrant_path s p _).trans (raise_path _ p _)).trans (raiseIfHoldover_path _ p g)
    · split
      · exact EnginePath.refl s
      · exact requestByState_path s p

theorem settledCompletion_path (s : State) (p : PortIx) (x : Source) : EnginePath w s (s.settledCompletion p x) := by
  unfold State.settledCompletion
  split
  · exact EnginePath.refl s
  · split
    · split
      · split
        · exact commitNewLoop_path s p
        · exact setCutOver_path s p _
      · exact completionCases_path s p x _
    · exact completionCases_path s p x _
    · exact completionCases_path s p x _
    · exact completionCases_path s p x _

theorem commitIfSameLoop_path (s : State) (p : PortIx) (x : Source) : EnginePath w s (s.commitIfSameLoop p x) := by
  unfold State.commitIfSameLoop
  split
  · split
    · exact commitSameLoop_path s p
    · exact EnginePath.refl s
  · exact EnginePath.refl s

theorem takeCompletion_path (s : State) (p : PortIx) (x : Source) : EnginePath w s (s.takeCompletion p x) := by
  unfold State.takeCompletion
  split
  · exact (commitIfSameLoop_path s p x).trans (settledCompletion_path _ p x)
  · exact EnginePath.refl s

theorem takeVoid_path (s : State) (p : PortIx) : EnginePath w s (s.takeVoid p) := by
  unfold State.takeVoid
  split
  · exact requestByState_path s p
  · exact EnginePath.refl s

/-! ### Rescue -/

theorem strand_path (s : State) (k : LoopIx) (p : PortIx) : EnginePath true s (s.strand k p) := by
  unfold State.strand
  split
  · exact EnginePath.refl s
  · exact ((((removeBinding_path s k _).trans (updGrant_path _ p _)).trans (raise_path _ p _)).trans (raiseCause_path _ _)).trans
      (requestByState_path _ p)

theorem abandonTarget_path (s : State) (k : LoopIx) (h : Handle) : EnginePath w s (s.abandonTarget k h) :=
  (((removeBinding_path s k h).trans (updGrant_path _ _ _)).trans (raise_path _ _ _)).trans (requestByState_path _ _)

theorem takeOver_path (s : State) (k : LoopIx) (h : Handle) (t : GrantBinding) (f tol : Nat) : EnginePath w s (s.takeOver k h t f tol) :=
  (((targetBecomesCurrent_path s _ h).trans (removeBinding_path _ k h)).trans (updGrant_path _ _ _)).trans (requestByState_path _ _)

theorem abandonSameLoop_path (s : State) (p : PortIx) : EnginePath w s (s.abandonSameLoop p) := by
  unfold State.abandonSameLoop
  split
  · exact EnginePath.refl s
  · split
    · exact (updGrant_path s p _).trans (raise_path _ p _)
    · exact EnginePath.refl s
    · exact EnginePath.refl s

theorem rescueAlone_path (s : State) (k : LoopIx) (h : Handle) : EnginePath true s (s.rescueAlone k h) := by
  unfold State.rescueAlone
  refine EnginePath.trans (abandonSameLoop_path s h.port) ?_
  dsimp only
  split
  · exact EnginePath.refl _
  · split
    · exact ((((removeBinding_path _ k h).trans (bindCurrent_path _ _ _)).trans (updGrant_path _ _ _)).trans (raise_path _ _ _)).trans
        (requestByState_path _ _)
    · exact strand_path _ k _

theorem moveBinding_path (s : State) (k k' : LoopIx) (i : EntryIx) (h : Handle) (d : Nat) : EnginePath w s (s.moveBinding k k' i h d) :=
  (removeBinding_path s k h).trans (appendBinding_path _ _ _ _)

theorem moveGrant_path (s : State) (k' : LoopIx) (i : EntryIx) (h : Handle) (d : Nat) : EnginePath w s (s.moveGrant k' i h d) :=
  (updGrant_path s _ _).trans (raise_path _ _ _)

theorem moveGroup_path (s : State) (k : LoopIx) (gi : GroupIx) (gr : Group) (k' : LoopIx) (i : EntryIx) (ds : List Nat) :
    EnginePath w s (s.moveGroup k gi gr k' i ds) :=
  ((((EnginePath.foldl _ (fun s (m : Handle × Nat) => moveBinding_path s k k' i m.1 m.2) _ s).trans
    (EnginePath.foldl _ (fun s (m : Handle × Nat) => moveGrant_path s k' i m.1 m.2) _ _)).trans (setGroup_path _ _ _)).trans
    (giveDivider_path _ _ _ _)).trans (EnginePath.foldl _ (fun s (h : Handle) => requestByState_path s h.port) _ _)

theorem rescueGroup_path (s : State) (k : LoopIx) (gi : GroupIx) (gr : Group) : EnginePath true s (s.rescueGroup k gi gr) := by
  unfold State.rescueGroup
  refine EnginePath.trans (EnginePath.foldl _ (fun s (h : Handle) => abandonSameLoop_path s h.port) gr.members s) ?_
  dsimp only
  split
  · exact moveGroup_path _ _ _ _ _ _ _
  · exact (EnginePath.foldl _ (fun s (h : Handle) => strand_path s k h.port) _ _).trans (dissolveGroup_path _ gi)

theorem rescueBinding_path (s : State) (k : LoopIx) (b : Binding) : EnginePath true s (s.rescueBinding k b) := by
  unfold State.rescueBinding
  split
  · exact removeBinding_path s k _
  · exact abandonTarget_path s k _
  · split
    · exact takeOver_path s k _ _ _ _
    · split
      · exact rescueGroup_path s k _ _
      · exact rescueAlone_path s k _
    · split
      · exact rescueGroup_path s k _ _
      · exact rescueAlone_path s k _

theorem rescue_path (s : State) (k : LoopIx) : EnginePath true s (s.rescue k) := by
  unfold State.rescue
  apply EnginePath.foldl
  intro s b
  split
  · exact rescueBinding_path s k b
  · exact EnginePath.refl s

/-! ### What a path leaves unchanged -/

/-- The EngineFrame of an update that leaves the maintenance port and the limits as they were. -/
theorem EngineFrame.ofEq {s t : State} (restart : t.restart = s.restart) (present : t.present = s.present) (station : t.station = s.station)
    (plan : t.plan = s.plan) (acquire : t.loops.acquireLimit = s.loops.acquireLimit)
    (holdover : t.loops.holdoverLimit = s.loops.holdoverLimit) (maint : t.maint = s.maint) (links : t.links = s.links)
    (pending : t.pending = s.pending) : EngineFrame s t where
  restart := restart
  present := present
  station := station
  plan := plan
  acquireLimit := acquire
  holdoverLimit := holdover
  maint := by rw [maint]
  latched := by rw [maint]
  counts := by rw [maint]; exact fun _ => min_le_right _ _
  bounded := by rw [maint]; exact id
  links := links
  pending := pending

theorem EngineFrame.refl (s : State) : EngineFrame s s := EngineFrame.ofEq rfl rfl rfl rfl rfl rfl rfl rfl rfl

theorem EngineFrame.trans {s t u : State} (h : EngineFrame s t) (k : EngineFrame t u) : EngineFrame s u where
  restart := k.restart.trans h.restart
  present := k.present.trans h.present
  station := k.station.trans h.station
  plan := k.plan.trans h.plan
  acquireLimit := k.acquireLimit.trans h.acquireLimit
  holdoverLimit := k.holdoverLimit.trans h.holdoverLimit
  maint := by rw [k.maint, h.maint]
  latched := k.latched.trans h.latched
  counts := fun i => le_trans (le_min (min_le_left _ _) (h.counts i)) (k.counts i)
  bounded := fun b => k.bounded (h.bounded b)
  links := k.links.trans h.links
  pending := k.pending.trans h.pending

/-- A raise of a cause adds at most one to its count and keeps the latch (08 R149). -/
theorem raiseCause_frame (s : State) (c : Cause) : EngineFrame s (s.raiseCause c) where
  restart := by simp
  present := by simp
  station := by simp
  plan := by simp
  acquireLimit := by simp
  holdoverLimit := by simp
  maint := rfl
  latched := rfl
  counts := by
    intro i
    by_cases h : i = c.index
    · subst h
      simp only [State.raiseCause, Attention.raise, rd_upd_same]
      omega
    · simp only [State.raiseCause, Attention.raise, rd_upd_ne _ _ _ _ h, min_le_right]
  bounded := by
    intro hb i
    by_cases h : i = c.index
    · subst h
      simp only [State.raiseCause, Attention.raise, rd_upd_same]
      omega
    · simp only [State.raiseCause, Attention.raise, rd_upd_ne _ _ _ _ h]
      exact hb i
  links := by simp
  pending := by simp

/-- Every elementary update keeps the frame. -/
theorem EngineStep.frame {s t : State} (h : EngineStep w s t) : EngineFrame s t := by
  cases h with
  | cause c _ => exact raiseCause_frame s c
  | start k i =>
    unfold State.startLoop
    split
    · apply EngineFrame.ofEq <;> simp [State.setLoop]
    · exact EngineFrame.refl s
  | stop k => apply EngineFrame.ofEq <;> simp [State.stopLoop, State.setLoop]
  | restart k i => apply EngineFrame.ofEq <;> simp [State.restartLoop, State.setLoop]
  | generation p n => exact EngineFrame.ofEq rfl rfl rfl rfl rfl rfl rfl rfl rfl
  | events k l => apply EngineFrame.ofEq <;> simp [State.setLockEvents]
  | grant p g => apply EngineFrame.ofEq <;> simp
  | list k l => apply EngineFrame.ofEq <;> simp
  | group gi g => apply EngineFrame.ofEq <;> simp
  | notices f => apply EngineFrame.ofEq <;> simp
  | request p x => apply EngineFrame.ofEq <;> simp
  | give g k v => apply EngineFrame.ofEq <;> simp
  | release g => apply EngineFrame.ofEq <;> simp
  | reports p l => apply EngineFrame.ofEq <;> simp
  | moment n b => exact EngineFrame.ofEq rfl rfl rfl rfl rfl rfl rfl rfl rfl

/-- A path of elementary updates keeps the frame. -/
theorem EnginePath.frame {s t : State} (h : EnginePath w s t) : EngineFrame s t := by
  induction h with
  | refl => exact EngineFrame.refl s
  | tail _ hst ih => exact ih.trans hst.frame

/-- Whatever an action of several requests keeps the frame of, it keeps as one action too. -/
theorem oneMoment_frame (f : State → State) (hf : ∀ s, EngineFrame s (f s)) (s : State) : EngineFrame s (s.oneMoment f) :=
  oneMoment_keeps (P := EngineFrame s) (Q := EngineFrame s) f (fun t h => h.trans (hf t))
    (fun t n b h => h.trans (EngineStep.moment (strands := false) t n b).frame)
    (fun t n b h => h.trans (EngineStep.moment (strands := false) t n b).frame) (EngineFrame.refl s)

/-- Up to the rescue, a loop failure keeps the frame (03 R66). -/
theorem failAndRescue_frame (s : State) (k : LoopIx) (c : FailCause) : EngineFrame s (s.failAndRescue k c) := by
  refine oneMoment_frame _ (fun s => ?_) s
  refine EngineFrame.trans ?_ (rescue_path _ k).frame
  refine EngineFrame.trans (takeAllLocks_path (w := false) s k).frame ?_
  apply EngineFrame.ofEq <;> simp [State.markFailed, State.setLoop]

/-- An action that strands no grant leaves the maintenance port as it was. -/
theorem EnginePath.calm {s t : State} (h : EnginePath false s t) : t.maint = s.maint := by
  induction h with
  | refl => rfl
  | tail _ hst ih =>
    rw [← ih]
    cases hst with
    | cause c h => exact absurd h (by decide)
    | start k i => unfold State.startLoop; split <;> simp
    | stop k => simp [State.stopLoop, State.portsLoopIdle]
    | restart k i => simp [State.restartLoop, State.advancePorts]
    | generation p n => rfl
    | events k l => simp
    | grant p g => simp
    | list k l => simp
    | group gi g => simp
    | notices f => simp
    | request p x => simp
    | give g k v => simp
    | release g => simp
    | reports p l => simp
    | moment n b => rfl

end Sys2Proof.Machine
end

