-- ==== Sys2Proof/Laws/Requests.lean ====
section
/-! SUPPORT. Every slot request is taken by its owner as a path of elementary updates; a refused one changes nothing. -/

namespace Sys2Proof.Machine

variable {w : Bool}

theorem retireSlot_path (s : State) (slot : SlotIx) (why : RetireWhy) : EnginePath w s (s.retireSlot slot why) :=
  oneMoment_path _ (fun s => (retire_path s _ why).trans (retire_path _ _ why)) s

theorem serveHello_path (s : State) (slot : SlotIx) (keep : Bool) : EnginePath w s (s.serveHello slot keep).1 := by
  unfold State.serveHello
  split
  · exact EnginePath.refl s
  · exact ite_path _ (withNotices_path s _) ((retireSlot_path s slot _).trans (withNotices_path _ _))

theorem addGrant_path (s : State) (p : PortIx) (a : RequestArgs) (b : GrantBinding) (g : Option GroupIx) :
    EnginePath w s (s.addGrant p a b g) :=
  ((EnginePath.one (.generation s p _)).trans (setGrant_path _ p _)).trans (appendBinding_path _ _ _ _)

theorem create_path (s : State) (p : PortIx) (a : RequestArgs) (b : GrantBinding) : EnginePath w s (s.create p a b).1 :=
  (addGrant_path s p a b none).trans (requestByState_path _ p)

theorem formGroup_path (s : State) (p : PortIx) (a : RequestArgs) (b : GrantBinding) (hd : Handle) (h : Grant) (gi : GroupIx) (v : Nat) :
    EnginePath w s (s.formGroup p a b hd h gi v).1 := by
  unfold State.formGroup
  dsimp only
  refine EnginePath.trans ?_ (ite_path _ (requestByState_path _ hd.port) (EnginePath.refl _))
  exact ((((addGrant_path s p a b _).trans (setGroup_path _ _ _)).trans (updGrant_path _ _ _)).trans (giveDivider_path _ _ _ _)).trans
    (requestByState_path _ p)

theorem joinGroup_path (s : State) (p : PortIx) (a : RequestArgs) (b : GrantBinding) (gi : GroupIx) (gr : Group) (v : Nat) :
    EnginePath w s (s.joinGroup p a b gi gr v).1 := by
  unfold State.joinGroup
  dsimp only
  refine EnginePath.trans ?_ (requestByState_path _ p)
  exact ((addGrant_path s p a b _).trans (setGroup_path _ _ _)).trans (ite_path _ (EnginePath.refl _) (giveDivider_path _ _ _ _))

theorem alignBound_path (s : State) (p : PortIx) (a : RequestArgs) (hd : Handle) (h : Grant) (hb : GrantBinding) :
    EnginePath w s (s.alignBound p a hd h hb).1 := by
  unfold State.alignBound
  dsimp only
  repeat' split
  all_goals first
    | exact EnginePath.refl s
    | exact joinGroup_path _ _ _ _ _ _ _
    | exact formGroup_path _ _ _ _ _ _ _ _

theorem serveAligned_path (s : State) (p : PortIx) (a : RequestArgs) (hd : Handle) : EnginePath w s (s.serveAligned p a hd).1 := by
  unfold State.serveAligned
  repeat' split
  all_goals first
    | exact EnginePath.refl s
    | exact alignBound_path _ _ _ _ _ _

theorem serveRequest_path (s : State) (slot : SlotIx) (a : RequestArgs) : EnginePath w s (s.serveRequest slot a).1 := by
  unfold State.serveRequest
  dsimp only
  repeat' split
  all_goals first
    | exact EnginePath.refl s
    | exact serveAligned_path _ _ _ _
    | exact create_path _ _ _ _

theorem retuneFresh_path (s : State) (h : Handle) (f tol : Nat) : EnginePath w s (s.retuneFresh h f tol).1 := by
  unfold State.retuneFresh
  split
  · exact ((updGrant_path s _ _).trans (bindCurrent_path _ _ _)).trans (requestByState_path _ _)
  · exact EnginePath.refl s

theorem retuneAtOnce_path (s : State) (h : Handle) (b : GrantBinding) (g : Option (GroupIx × Group)) (v d f tol : Nat) :
    EnginePath w s (s.retuneAtOnce h b g v d f tol) := by
  unfold State.retuneAtOnce
  cases g with
  | none => exact (applyDivider_path s h.port d f tol).trans (requestByState_path _ _)
  | some x =>
    exact (applyDivider_path s h.port d f tol).trans
      (EnginePath.trans (ite_path _ (giveDivider_path _ _ _ _) (EnginePath.refl _)) (requestByState_path _ _))

theorem retuneInFlight_path (s : State) (h : Handle) (b : GrantBinding) (g : Option (GroupIx × Group)) (v d f tol : Nat) :
    EnginePath w s (s.retuneInFlight h b g v d f tol) := by
  unfold State.retuneInFlight
  cases g with
  | none => exact (updGrant_path s h.port _).trans (requestByState_path _ _)
  | some x => exact ((updGrant_path s h.port _).trans (giveDivider_path _ _ _ _)).trans (requestByState_path _ _)

theorem retuneSameLoop_path (s : State) (h : Handle) (g : Grant) (b : GrantBinding) (d f tol : Nat) :
    EnginePath w s (s.retuneSameLoop h g b d f tol).1 := by
  unfold State.retuneSameLoop
  generalize s.groupOf g = o
  dsimp only
  repeat' split
  all_goals dsimp only
  all_goals first
    | exact EnginePath.refl s
    | exact retuneInFlight_path _ _ _ _ _ _ _ _
    | exact retuneAtOnce_path _ _ _ _ _ _ _ _

theorem retuneNewLoop_path (s : State) (h : Handle) (g : Grant) (t : GrantBinding) (f tol : Nat) :
    EnginePath w s (s.retuneNewLoop h g t f tol).1 := by
  unfold State.retuneNewLoop
  dsimp only
  exact ((updGrant_path s _ _).trans (appendBinding_path _ _ _ _)).trans (ite_path _ (setCutOver_path _ _ _) (EnginePath.refl _))

theorem retuneRestart_path (s : State) (h : Handle) (b : GrantBinding) (i : EntryIx) (d f tol : Nat) :
    EnginePath w s (s.retuneRestart h b i d f tol).1 := by
  unfold State.retuneRestart
  dsimp only
  exact (((restartLoop_path s _ _).trans (setBindingDivider_path _ _ _ _)).trans (updGrant_path _ _ _)).trans (requestByState_path _ _)

theorem retuneSameBinding_path (s : State) (h : Handle) (g : Grant) (f tol : Nat) : EnginePath w s (s.retuneSameBinding h g f tol).1 :=
  (updGrant_path s _ _).trans (raiseRetuned_path _ _)

theorem retuneBound_path (s : State) (h : Handle) (g : Grant) (b : GrantBinding) (f tol : Nat) (gap : Bool) :
    EnginePath w s (s.retuneBound h g b f tol gap).1 := by
  unfold State.retuneBound State.retuneElsewhere
  repeat' split
  all_goals first
    | exact EnginePath.refl s
    | exact retuneSameBinding_path _ _ _ _ _
    | exact retuneSameLoop_path _ _ _ _ _ _ _
    | exact retuneNewLoop_path _ _ _ _ _ _
    | exact retuneRestart_path _ _ _ _ _ _ _

theorem serveRetune_path (s : State) (slot : SlotIx) (a : RetuneArgs) : EnginePath w s (s.serveRetune slot a).1 := by
  unfold State.serveRetune
  repeat' split
  all_goals first
    | exact EnginePath.refl s
    | exact retuneFresh_path _ _ _ _
    | exact retuneBound_path _ _ _ _ _ _ _

theorem serveRelease_path (s : State) (slot : SlotIx) (h : Option Handle) : EnginePath w s (s.serveRelease slot h).1 := by
  unfold State.serveRelease
  repeat' split
  all_goals first
    | exact EnginePath.refl s
    | exact retire_path _ _ _

theorem serveRenew_path (s : State) (slot : SlotIx) (h : Option Handle) (period : Nat) : EnginePath w s (s.serveRenew slot h period).1 := by
  unfold State.serveRenew
  repeat' split
  all_goals first
    | exact EnginePath.refl s
    | exact updGrant_path _ _ _

theorem serveAck_path (s : State) (slot : SlotIx) (place : Place) (kind : NoticeKind) (seq : Nat) :
    EnginePath w s (s.serveAck slot place kind seq).1 := by
  unfold State.serveAck
  repeat' split
  all_goals first
    | exact EnginePath.refl s
    | exact withNotices_path s (fun _ => _)

/-- A slot request at its owner is a path of elementary updates. -/
theorem serve_path (s : State) (slot : SlotIx) (r : SlotReq) : EnginePath w s (s.serve slot r).1 := by
  cases r with
  | hello keep => exact serveHello_path s slot keep
  | request a => exact serveRequest_path s slot a
  | retune a => exact serveRetune_path s slot a
  | release h => exact serveRelease_path s slot h
  | renew h period => exact serveRenew_path s slot h period
  | query line => exact EnginePath.refl s
  | notices => exact EnginePath.refl s
  | ack place kind seq => exact serveAck_path s slot place kind seq

/-- An aligned REQUEST around a grant that is bound and has no NEW_LOOP retune goes on to steps 3 to 7 of 01 R14. -/
theorem serveAligned_bound (s : State) (p : PortIx) (a : RequestArgs) (hd : Handle) (h : Grant) (hb : GrantBinding)
    (hr : s.resolve hd = some h) (hn : ∀ t f tol cut, h.retune ≠ some (.newLoop t f tol cut)) (hb' : h.binding = some hb)
    (hs : h.state ≠ .stranded) : s.serveAligned p a hd = s.alignBound p a hd h hb := by
  unfold State.serveAligned
  simp only [hr]
  rcases hrt : h.retune with _ | r
  · simp only [hb', if_neg hs]
  · cases r with
    | sameLoop => simp only [hb', if_neg hs]
    | newLoop t f tol cut => exact absurd hrt (hn t f tol cut)

/-! ### The link around the owner -/

/-- A change of one link record leaves every other link record as it was. -/
theorem updLink_link (s : State) (slot j : SlotIx) (f : LinkRec → LinkRec) :
    (s.updLink slot f).link j = if j = slot then f (s.link slot) else s.link j := by
  unfold State.updLink State.link
  by_cases h : j = slot
  · subst h; simp
  · simp [h]

/-- A hunting receiver is left as it is by a return to hunting. -/
theorem hunt_eq (s : State) (slot : SlotIx) (h : (s.link slot).receiver = .hunting) : s.hunt slot = s := by
  have : upd s.links slot (fun l => { l with receiver := .hunting }) = s.links := by
    apply bank_ext
    intro j
    by_cases hj : j = slot
    · subst hj
      simp only [rd_upd_same]
      have h' : (rd s.links j).receiver = .hunting := h
      cases hl : rd s.links j
      simp_all
    · simp [hj]
  unfold State.hunt State.updLink
  rw [this]

/-- A frame whose receiver hunts can arrive exactly when the link listens. -/
theorem canReceive_hunting (s : State) (slot : SlotIx) (f : RawFrame) (h : (s.link slot).receiver = .hunting) :
    s.canReceive slot f = (s.link slot).listening := by
  unfold State.canReceive Receiver.awaits
  rw [h]
  simp

/-- A slot request at a ready link is taken by its owner and answered (09 R157). -/
theorem slotRequest_ready (s : State) (slot : SlotIx) (tag : Tag) (r : SlotReq) (h : s.linkReady slot) :
    s.slotRequest slot tag r = (s.serve slot r).1.answer slot tag (s.serve slot r).2 := by
  obtain ⟨h1, h2, h3⟩ := h
  unfold State.slotRequest
  rw [canReceive_hunting s slot _ h2, h1, hunt_eq s slot h2]
  unfold State.requestArrives LinkRec.working
  rw [h3]
  rfl

/-- A slot request at a WORKING link is refused and its tag held (09 R158). -/
theorem slotRequest_working (s : State) (slot : SlotIx) (tag : Tag) (r : SlotReq) (h : s.linkWorking slot) :
    s.slotRequest slot tag r = s.holdBusy slot tag := by
  obtain ⟨h1, h2, h3⟩ := h
  unfold State.slotRequest
  rw [canReceive_hunting s slot _ h2, h1, hunt_eq s slot h2]
  unfold State.requestArrives LinkRec.working
  rw [h3]
  rfl

/-- Outside the links a frame's arrival is its request's owner's action, or nothing. -/
theorem requestArrives_cases (s : State) (slot : SlotIx) (tag : Tag) (r : SlotReq) :
    s.requestArrives slot tag r = s.holdBusy slot tag ∨
    s.requestArrives slot tag r = (s.serve slot r).1.answer slot tag (s.serve slot r).2 := by
  unfold State.requestArrives
  split
  · exact Or.inl rfl
  · exact Or.inr rfl

/-- What a frame's arrival does (09 R157, R158). -/
theorem frameArrives_cases (s : State) (slot : SlotIx) (f : RawFrame) :
    s.frameArrives slot f = s ∨ (∃ tag, s.frameArrives slot f = s.holdBusy slot tag) ∨
    (∃ tag a, s.frameArrives slot f = s.answer slot tag a) ∨
    ∃ tag r, s.frameArrives slot f = (s.serve slot r).1.answer slot tag (s.serve slot r).2 := by
  unfold State.frameArrives
  split
  · split
    · exact Or.inr (Or.inl ⟨_, rfl⟩)
    · exact Or.inl rfl
  · split
    · exact Or.inr (Or.inr (Or.inl ⟨_, _, rfl⟩))
    · split
      · exact Or.inr (Or.inr (Or.inr ⟨_, _, rfl⟩))
      · exact Or.inr (Or.inr (Or.inl ⟨_, _, rfl⟩))

end Sys2Proof.Machine
end

