-- ==== Sys2Proof/Laws/Search.lean ====
section
/-! SUPPORT. Searches in number order: what the first success of a search over loops, entries or groups is, and the steps of allocation (01 R9). -/

namespace Sys2Proof.Machine

/-! ### First success in number order -/

/-- The first success of a search over a rising list is that of the least index that succeeds. -/
theorem findSome_least {n : Nat} {α : Type} (f : Fin n → Option α) (k : Fin n) (x : α) (hx : f k = some x) (hn : ∀ j < k, f j = none) :
    ∀ l : List (Fin n), l.Pairwise (· < ·) → k ∈ l → l.findSome? f = some x := by
  intro l
  induction l with
  | nil => intro _ h; cases h
  | cons y l ih =>
    intro hp hm
    rw [List.pairwise_cons] at hp
    rcases List.mem_cons.mp hm with rfl | hm
    · simp [hx]
    · rw [List.findSome?_cons, hn y (hp.1 k hm)]
      exact ih hp.2 hm

/-- A search that finds nothing finds it for no index. -/
theorem findSome_none {n : Nat} {α : Type} (f : Fin n → Option α) (l : List (Fin n)) (h : ∀ j, f j = none) : l.findSome? f = none := by
  rw [List.findSome?_eq_none_iff]
  exact fun j _ => h j

theorem allLoops_rising : allLoops.Pairwise (· < ·) := by decide

theorem mem_allLoops (k : LoopIx) : k ∈ allLoops := by revert k; decide

theorem allEntries_rising : allEntries.Pairwise (· < ·) := by decide +kernel

theorem mem_allEntries (i : EntryIx) : i ∈ allEntries := by revert i; decide +kernel

theorem allGroups_rising : allGroups.Pairwise (· < ·) := by decide

theorem mem_allGroups (g : GroupIx) : g ∈ allGroups := by revert g; decide

theorem mem_allPorts (p : PortIx) : p ∈ allPorts := by revert p; decide +kernel

theorem mem_allSlots (j : SlotIx) : j ∈ allSlots := by revert j; decide

/-- The first index of a rising list that passes a test is the least one. -/
theorem find_least {n : Nat} (f : Fin n → Bool) (k : Fin n) (hx : f k = true) (hn : ∀ j < k, f j = false) :
    ∀ l : List (Fin n), l.Pairwise (· < ·) → k ∈ l → l.find? f = some k := by
  intro l
  induction l with
  | nil => intro _ h; cases h
  | cons y l ih =>
    intro hp hm
    rw [List.pairwise_cons] at hp
    rcases List.mem_cons.mp hm with rfl | hm
    · simp [hx]
    · rw [List.find?_cons, hn y (hp.1 k hm)]
      exact ih hp.2 hm

/-- The lowest group id not in use (01 R13). -/
theorem freeGroup_least (s : State) (gi : GroupIx) (h : rd s.engine.groups gi = none)
    (hn : ∀ j < gi, (rd s.engine.groups j).isSome = true) : s.freeGroup = some gi :=
  find_least _ gi (by simp [h]) (fun j hj => by simp [hn j hj]) _ allGroups_rising (mem_allGroups gi)

/-- No group id is free when all are in use. -/
theorem freeGroup_none (s : State) (h : ∀ gi, (rd s.engine.groups gi).isSome = true) : s.freeGroup = none := by
  unfold State.freeGroup
  rw [List.find?_eq_none]
  intro gi _
  simp [Option.isSome_iff_ne_none.mp (h gi)]

/-! ### Loop records and appending to a list -/

/-- One loop record replaced. -/
theorem setLoop_loop (s : State) (k j : LoopIx) (l : LoopRec) : (s.setLoop k l).loop j = if j = k then l else s.loop j := by
  unfold State.setLoop State.loop
  exact rd_wr _ _ _ _

/-- A binding appended to the list of a running loop issues no start (01 R6). -/
theorem appendBinding_running (s : State) (k : LoopIx) (i : EntryIx) (b : Binding) (h : (s.loop k).state ≠ .idle) :
    s.appendBinding k i b = s.setList k (s.list k ++ [b]) := by
  unfold State.appendBinding State.startLoop
  rw [if_neg]
  exact fun hc => h hc.1

/-- A binding appended to the list of an IDLE loop that is not quarantined starts it (01 R6, 03 R46). -/
theorem appendBinding_idle (s : State) (k : LoopIx) (i : EntryIx) (b : Binding) (h : (s.loop k).state = .idle)
    (hf : (s.loop k).failed = none) : s.appendBinding k i b = (s.setList k (s.list k ++ [b])).setLoop k
      (LoopRec.started s.loops.acquireLimit s.station.station i (planMode s.plan i)) := by
  unfold State.appendBinding State.startLoop
  rw [if_pos]
  · simp
  · exact ⟨h, hf⟩

/-! ### Allocation -/

/-- A loop's entry put to a test. -/
theorem tryEntry_some {α : Type} (l : LoopRec) (test : EntryIx → Option α) (i : EntryIx) (a : α) (hr : l.run.map Run.entry = some i)
    (ht : test i = some a) : l.tryEntry test = some (i, a) := by
  unfold LoopRec.tryEntry
  cases h : l.run with
  | none => simp [h] at hr
  | some r => simp [h] at hr; simp [hr, ht]

/-- A loop whose entry fails a test. -/
theorem tryEntry_none {α : Type} (l : LoopRec) (test : EntryIx → Option α)
    (h : ∀ i a, l.run.map Run.entry = some i → test i ≠ some a) : l.tryEntry test = none := by
  unfold LoopRec.tryEntry
  cases hr : l.run with
  | none => rfl
  | some r =>
    have := h r.entry
    simp only [hr, Option.map_some, true_implies] at this
    cases ht : test r.entry with
    | none => simp [ht]
    | some a => exact absurd ht (this a)

/-- What a search for a loop finds was found by one of its steps: the loop is not in HOLDOVER, and it is not quarantined when it is IDLE. -/
theorem searchLoops_found {α : Type} (loops : Vector LoopRec 6) (ex : Option LoopIx) (test : EntryIx → Option α) (k : LoopIx) (i : EntryIx)
    (a : α) (h : searchLoops loops ex test = some (k, i, a)) :
    ex ≠ some k ∧ test i = some a ∧
    (((rd loops k).state = .idle ∧ (rd loops k).failed = none) ∨
     (((rd loops k).state = .locked ∨ (rd loops k).state = .acquiring ∨ (rd loops k).state = .tracking ∨ (rd loops k).state = .waiting) ∧
      (rd loops k).run.map Run.entry = some i)) := by
  have key : ∀ p : LoopIx → Bool, allLoops.findSome? (fun k =>
      if ex ≠ some k ∧ p k = true then ((rd loops k).tryEntry test).map (fun x => (k, x)) else none) = some (k, i, a) →
      ex ≠ some k ∧ p k = true ∧ test i = some a ∧ (rd loops k).run.map Run.entry = some i := by
    intro p hp
    obtain ⟨j, _, hj⟩ := List.exists_of_findSome?_eq_some hp
    split at hj
    · rename_i hc
      unfold LoopRec.tryEntry at hj
      cases hr : (rd loops j).run with
      | none => simp [hr] at hj
      | some r =>
        simp only [hr, Option.map_eq_some_iff, Prod.mk.injEq] at hj
        obtain ⟨x, ⟨y, hy, rfl⟩, rfl, rfl, rfl⟩ := hj
        exact ⟨hc.1, hc.2, hy, by simp [hr]⟩
    · cases hj
  unfold searchLoops at h
  split at h
  · rename_i r hr
    cases h
    obtain ⟨h1, h2, h3, h4⟩ := key (fun k => (rd loops k).sharedLocked) hr
    simp only [LoopRec.sharedLocked, beq_iff_eq] at h2
    exact ⟨h1, h3, Or.inr ⟨Or.inl h2, h4⟩⟩
  · split at h
    · rename_i r hr
      cases h
      obtain ⟨h1, h2, h3, h4⟩ := key (fun k => (rd loops k).sharedUnlocked) hr
      simp only [LoopRec.sharedUnlocked, Bool.or_eq_true, beq_iff_eq] at h2
      exact ⟨h1, h3, Or.inr ⟨Or.inr (by tauto), h4⟩⟩
    · split at h
      · rename_i j hj
        have hp := List.find?_some hj
        obtain ⟨e, _, he⟩ := List.exists_of_findSome?_eq_some h
        simp only [Option.map_eq_some_iff, Prod.mk.injEq] at he
        obtain ⟨x, hx, rfl, rfl, rfl⟩ := he
        simp only [LoopRec.startable, Bool.and_eq_true, bne_iff_ne, beq_iff_eq, Option.isNone_iff_eq_none] at hp
        exact ⟨hp.1, hx, Or.inl hp.2⟩
      · cases h

/-- What allocation finds (01 R9). -/
theorem allocate_found (s : State) (f tol : Nat) (ex : Option LoopIx) (b : GrantBinding) (h : s.allocate f tol ex = some b) :
    ex ≠ some b.loop ∧ matchEntry s.plan s.station.rate b.entry f tol = some b.d ∧
    (((s.loop b.loop).state = .idle ∧ (s.loop b.loop).failed = none) ∨
     (((s.loop b.loop).state = .locked ∨ (s.loop b.loop).state = .acquiring ∨ (s.loop b.loop).state = .tracking ∨
       (s.loop b.loop).state = .waiting) ∧ (s.loop b.loop).run.map Run.entry = some b.entry)) := by
  unfold State.allocate at h
  rw [Option.map_eq_some_iff] at h
  obtain ⟨⟨k, i, d⟩, hx, rfl⟩ := h
  exact searchLoops_found _ _ _ _ _ _ hx

end Sys2Proof.Machine
end

