-- ==== Sys2Proof/Laws/Helpers.lean ====
section
/-! SUPPORT. Small lemmas of shared helpers: banks written twice, cells named by a command's number, ranges as propositions, and the raises made for every present slot. -/

namespace Sys2Proof

/-! ### Banks -/

@[simp] theorem wr_wr {α : Type} {n : Nat} (v : Vector α n) (i : Fin n) (x y : α) : wr (wr v i x) i y = wr v i y := by
  apply bank_ext
  intro k
  simp only [rd_wr]
  split <;> rfl

theorem wr_comm {α : Type} {n : Nat} (v : Vector α n) (i j : Fin n) (x y : α) (h : i ≠ j) : wr (wr v i x) j y = wr (wr v j y) i x := by
  apply bank_ext
  intro k
  by_cases h1 : k = i
  · subst h1; simp [h]
  · simp [rd_wr, h1]

theorem upd_eq {α : Type} {n : Nat} (v : Vector α n) (i : Fin n) (f : α → α) : upd v i f = wr v i (f (rd v i)) := rfl

namespace Machine

theorem inBank_val {n : Nat} (i : Fin n) : inBank n i.val = some i := by simp [inBank]

theorem inBank_out {n k : Nat} (h : n ≤ k) : inBank n k = none := by simp [inBank, h]

/-! ### Slots and ranges -/

theorem slotOf_iff (p : PortIx) (slot : SlotIx) : slotOf p = slot ↔ p.val / 2 = slot.val := by
  unfold slotOf
  exact Fin.ext_iff

theorem targetInRange_iff (f tol : Nat) : targetInRange f tol = true ↔ 1 ≤ f ∧ f ≤ 250000000 ∧ 1 ≤ tol ∧ tol ≤ 500 := by
  simp [targetInRange, and_assoc]

theorem requestAcceptable_iff (a : RequestArgs) :
    requestAcceptable a = true ↔ 1 ≤ a.f ∧ a.f ≤ 250000000 ∧ 1 ≤ a.tol ∧ a.tol ≤ 500 ∧
      (if a.policy = .fallback then 1 ≤ a.fd ∧ a.fd ≤ 65535 else a.fd = 0) ∧ (a.lease = 0 ∨ (1 ≤ a.lease ∧ a.lease ≤ 3600)) := by
  cases h : a.policy <;> simp [requestAcceptable, targetInRange, periodInRange, h, and_assoc]

/-! ### The plan searches (02 R41) -/

theorem findEntry_none (plan : Vector (Option PlanEntry) 32) (rate f tol : Nat) :
    findEntry plan rate f tol = none ↔ ∀ i, matchEntry plan rate i f tol = none := by
  unfold findEntry
  rw [List.findSome?_eq_none_iff]
  constructor
  · intro h i; simpa using h i (mem_allEntries i)
  · intro h i _; simp [h i]

/-! ### Rows and targets -/

/-- The row that carries a slot request is the arrival of its frame. -/
theorem exec_slotRow (slot : SlotIx) (tag : Tag) (r : SlotReq) (s : State) : exec (slotRow slot tag r) s = .next (s.slotRequest slot tag r) := by
  cases r <;> rfl

theorem updLink_wr (s : State) (slot : SlotIx) (f : LinkRec → LinkRec) :
    s.updLink slot f = { s with links := wr s.links slot (f (s.link slot)) } := rfl

/-- A port target rests on the loop records alone. -/
theorem portTarget_congr {s t : State} (h : t.loops.loops = s.loops.loops) (g : Grant) : t.portTarget g = s.portTarget g := by
  unfold State.portTarget State.tableTarget State.loop
  rw [h]

/-- A slot record with one kind raised (08 R142, R143). -/
def SlotNotices.told (k : SlotKind) (n : SlotNotices) : SlotNotices :=
  match k with
  | .restarted => { n with restarted := n.restarted.raised }
  | .continued => { n with continued := n.continued.raised }

theorem raiseSlots_fold (present : Vector Bool 12) (k : SlotKind) (l : List SlotIx) (hl : l.Nodup) (u : NoticeUnit) :
    l.foldl (fun u slot => if rd present slot then u.raiseSlot slot k else u) u =
      { u with slots := mapCells (fun slot n => if slot ∈ l ∧ rd present slot = true then n.told k else n) u.slots } := by
  induction l generalizing u with
  | nil =>
    have : mapCells (fun (slot : SlotIx) n => if slot ∈ ([] : List SlotIx) ∧ rd present slot = true then n.told k else n) u.slots = u.slots := by
      apply bank_ext
      intro i
      simp
    rw [this]
    rfl
  | cons a l ih =>
    rw [List.foldl_cons, ih (List.nodup_cons.mp hl).2]
    have ha := (List.nodup_cons.mp hl).1
    cases hp : rd present a
    · simp only [Bool.false_eq_true, if_false]
      congr 1
      apply bank_ext
      intro i
      simp only [rd_mapCells]
      by_cases h : i = a
      · subst h; simp [hp]
      · simp [h]
    · simp only [if_true, NoticeUnit.raiseSlot]
      congr 1
      apply bank_ext
      intro i
      simp only [rd_mapCells]
      by_cases h : i = a
      · subst h; simp [hp, ha]; cases k <;> rfl
      · rw [rd_upd_ne _ _ _ _ h]; simp [h]

/-- A slot kind raised for every present slot (08 R142). -/
theorem raiseForPresent_eq (u : NoticeUnit) (present : Vector Bool 12) (k : SlotKind) :
    u.raiseForPresent present k = { u with slots := mapCells (fun slot n => if rd present slot = true then n.told k else n) u.slots } := by
  unfold NoticeUnit.raiseForPresent
  rw [raiseSlots_fold _ _ _ (by decide)]
  congr 1
  apply bank_ext
  intro i
  simp only [rd_mapCells, mem_allSlots, true_and]

/-- Twelve links reset, whatever they held (09 R168). -/
theorem resetLinks_eq (present : Vector Bool 12) (links : Vector LinkRec 12) :
    resetLinks present = mapCells (fun slot _ => { LinkRec.mute with listening := rd present slot }) links := by
  apply bank_ext
  intro i
  simp [resetLinks]

end Machine

end Sys2Proof
end

