-- ==== Sys2Proof/Laws/Retire.lean ====
section
/-! SUPPORT. Groups left and dissolved, bindings removed, and ports requested OFF: what each of them does to the engine's tables and the ports (01 R18, R19, R21). -/

namespace Sys2Proof.Machine

/-! ### Single records -/

theorem grantAt_setGrant (s : State) (p q : PortIx) (g : Option Grant) : (s.setGrant p g).grantAt q = if q = p then g else s.grantAt q := by
  unfold State.grantAt State.setGrant
  exact rd_wr _ _ _ _

theorem grantAt_updGrant (s : State) (p q : PortIx) (f : Grant → Grant) :
    (s.updGrant p f).grantAt q = if q = p then (s.grantAt p).map f else s.grantAt q := grantAt_setGrant s p q _

/-- The grant table rests on the engine alone. -/
theorem grantAt_congr {s t : State} (h : t.engine = s.engine) (p : PortIx) : t.grantAt p = s.grantAt p := by
  unfold State.grantAt
  rw [h]

/-- A live handle's grant stands on its port with its generation (01 R4). -/
theorem resolve_some {s : State} {h : Handle} {g : Grant} (e : s.resolve h = some g) : s.grantAt h.port = some g ∧ g.gen = h.gen := by
  unfold State.resolve at e
  split at e
  · rename_i x hx
    split at e
    · rename_i hg
      cases e
      exact ⟨hx, hg⟩
    · cases e
  · cases e

/-! ### Groups -/

/-- The members of a dissolved group lose it; every other block is as it was (01 R19). -/
theorem ungroup_fold (l : List Handle) (s : State) :
    let t := l.foldl (fun s h => s.updGrant h.port (fun g => { g with group := none })) s
    (∀ q, t.grantAt q = if q ∈ l.map Handle.port then (s.grantAt q).map (fun g => { g with group := none }) else s.grantAt q) ∧
    t = { s with engine := { s.engine with grants := t.engine.grants } } := by
  induction l generalizing s with
  | nil => exact ⟨fun q => by simp, rfl⟩
  | cons h l ih =>
    obtain ⟨h1, h2⟩ := ih (s.updGrant h.port (fun g => { g with group := none }))
    refine ⟨?_, ?_⟩
    · intro q
      simp only [List.foldl_cons]
      rw [h1 q, grantAt_updGrant]
      by_cases hq : q = h.port
      · subst hq
        simp only [if_true, List.map_cons, List.mem_cons, true_or]
        cases s.grantAt h.port <;> simp
      · simp [hq]
    · simp only [List.foldl_cons]
      rw [h2]
      rfl

/-- A dissolution leaves the loops, the lists, the generations and the notices as they were, and frees the group's id (01 R19). -/
theorem dissolveGroup_effect (s : State) (gi : GroupIx) (gr : Group) (h : rd s.engine.groups gi = some gr) :
    let t := s.dissolveGroup gi
    (∀ q, t.grantAt q = if q ∈ gr.members.map Handle.port then (s.grantAt q).map (fun g => { g with group := none }) else s.grantAt q) ∧
    t = { s with engine := { s.engine with grants := t.engine.grants, groups := wr s.engine.groups gi none },
                 switch := s.switch.releaseDivider s.loops.loops s.station.station gi } := by
  obtain ⟨h1, h2⟩ := ungroup_fold gr.members (s.setGroup gi none)
  unfold State.dissolveGroup
  simp only [h]
  refine ⟨?_, ?_⟩
  · intro q
    have e : ∀ u : State, (u.releaseDivider gi).grantAt q = u.grantAt q := fun u => by simp [State.grantAt]
    rw [e, h1 q]
    rfl
  · rw [h2]
    rfl

/-- A grant that leaves its group moves the grant table, the group table and the port switch unit, and nothing else (01 R18). -/
theorem leaveGroup_shape (s : State) (p : PortIx) :
    s.leaveGroup p =
      { s with engine := { s.engine with grants := (s.leaveGroup p).engine.grants, groups := (s.leaveGroup p).engine.groups },
               switch := (s.leaveGroup p).switch } := by
  unfold State.leaveGroup
  split
  · rfl
  · rename_i g0 _
    split
    · rfl
    · rename_i gi _
      split
      · rfl
      · rename_i gr _
        dsimp only
        split
        · obtain ⟨_, h2⟩ := dissolveGroup_effect
            ((s.updGrant p fun g => { g with group := none }).setGroup gi
              (some { gr with members := List.filter (fun h => h != g0.handle p) gr.members }))
            gi { gr with members := List.filter (fun h => h != g0.handle p) gr.members } (by simp [State.setGroup])
          rw [h2]
          rfl
        · rfl

/-- What leaving a group does: nothing for an ungrouped grant; else the others stay in order, or the group is dissolved (01 R18, R19). -/
theorem leaveGroup_effect (s : State) (p : PortIx) (g : Grant) (hg : s.grantAt p = some g) :
    let t := s.leaveGroup p
    (g.group = none → t = s) ∧
    (∀ gi gr, g.group = some gi → rd s.engine.groups gi = some gr →
      let rest := gr.members.filter (fun m => m != g.handle p)
      (2 ≤ rest.length → t.engine.groups = wr s.engine.groups gi (some { gr with members := rest }) ∧ ∀ q, q ≠ p → t.grantAt q = s.grantAt q) ∧
      (rest.length ≤ 1 → t.engine.groups = wr s.engine.groups gi none ∧ rd t.switch.dividers gi = none ∧
        ∀ q, q ≠ p → t.grantAt q =
          if q ∈ rest.map Handle.port then (s.grantAt q).map (fun m => { m with group := none }) else s.grantAt q)) := by
  dsimp only
  refine ⟨?_, ?_⟩
  · intro h
    unfold State.leaveGroup
    simp [hg, h]
  · intro gi gr h h'
    set rest := gr.members.filter (fun m => m != g.handle p) with hr
    set u := ((s.updGrant p fun g => { g with group := none }).setGroup gi (some { gr with members := rest })) with hu
    have e : s.leaveGroup p = if rest.length ≤ 1 then u.dissolveGroup gi else u := by
      unfold State.leaveGroup
      simp only [hg, h, h']
      rfl
    have hug : ∀ q, q ≠ p → u.grantAt q = s.grantAt q := by
      intro q hq
      have he : ∀ v : State, ∀ x, (v.setGroup gi x).grantAt q = v.grantAt q := fun v x => rfl
      rw [hu, he, grantAt_updGrant, if_neg hq]
    refine ⟨?_, ?_⟩
    · intro hl
      rw [e, if_neg (by omega)]
      exact ⟨rfl, hug⟩
    · intro hl
      rw [e, if_pos hl]
      obtain ⟨h1, h2⟩ := dissolveGroup_effect u gi { gr with members := rest } (by rw [hu]; simp [State.setGroup])
      refine ⟨?_, ?_, ?_⟩
      · rw [h2]
        apply bank_ext
        intro j
        simp only [hu, State.setGroup, State.updGrant, State.setGrant, rd_wr]
        split <;> rfl
      · rw [h2]
        simp [SwitchUnit.releaseDivider]
      · intro q hq
        rw [h1 q, hug q hq]

/-! ### Lists -/

theorem list_setList (s : State) (k j : LoopIx) (l : List Binding) : (s.setList k l).list j = if j = k then l else s.list j := by
  unfold State.list State.setList
  exact rd_wr _ _ _ _

theorem list_removeBinding (s : State) (k j : LoopIx) (h : Handle) :
    (s.removeBinding k h).list j = if j = k then (s.list k).filter (fun b => b.handle != h) else s.list j := list_setList _ _ _ _

theorem list_congr {s t : State} (h : t.engine = s.engine) (k : LoopIx) : t.list k = s.list k := by
  unfold State.list
  rw [h]

/-- A binding removed from a list, its loop stopped when the list is emptied by it (01 R6, R21). -/
theorem unbind_effect (s : State) (k : LoopIx) (h : Handle) :
    let t := s.unbind k h
    let rest := (s.list k).filter (fun b => b.handle != h)
    let stopped := (s.list k).any (fun b => b.handle == h) = true ∧ rest = []
    (∀ j, t.list j = if j = k then rest else s.list j) ∧
    (∀ j, t.loop j = if j = k ∧ stopped then LoopRec.idle else s.loop j) ∧
    t = { s with engine := { s.engine with lists := wr s.engine.lists k rest },
                 loops := { s.loops with loops := t.loops.loops }, switch := t.switch } := by
  have hl : ((s.removeBinding k h).list k).isEmpty = true ↔ (s.list k).filter (fun b => b.handle != h) = [] := by
    rw [list_removeBinding]
    simp
  unfold State.unbind
  split
  · rename_i hc
    rw [hl] at hc
    refine ⟨?_, ?_, rfl⟩
    · intro j
      rw [list_congr (s := s.removeBinding k h) (by simp [State.stopLoop]), list_removeBinding]
    · intro j
      have e : ((s.removeBinding k h).stopLoop k).loop j = ((s.removeBinding k h).setLoop k LoopRec.idle).loop j := by
        simp [State.stopLoop, State.loop]
      rw [e, setLoop_loop]
      by_cases hj : j = k
      · simp only [hj, true_and, if_pos hc, if_true]
      · simp [hj, State.loop]
  · rename_i hc
    rw [hl] at hc
    refine ⟨fun j => list_removeBinding s k j h, ?_, rfl⟩
    intro j
    rw [if_neg (fun hj => hc hj.2)]
    simp [State.loop]

/-! ### Ports -/

/-- A port advanced toward OFF is OFF or still switching toward OFF (04 R75 to R77). -/
theorem advance_towardOff (loops : Vector LoopRec 6) (station : Option Ref) (r : PortRec) (sw : Switching)
    (h : r.switching = some sw) (ht : sw.target = .none) :
    let x := (r.advance loops station).1
    (x.switching = none ∧ x.current = .none) ∨ ∃ y, x.switching = some y ∧ y.target = .none := by
  unfold PortRec.advance
  simp only [h, ht]
  split
  · split
    · exact Or.inl ⟨rfl, rfl⟩
    · rw [if_pos (by simp)]
      exact Or.inl ⟨rfl, rfl⟩
  · exact Or.inr ⟨sw, h, ht⟩

/-- A port asked to switch to OFF is OFF or switching toward OFF (01 R21 step 3; 04 R78). -/
theorem request_off (loops : Vector LoopRec 6) (station : Option Ref) (low : Bool) (r : PortRec) :
    let x := (r.request loops station low .none).1
    (x.switching = none ∧ x.current = .none) ∨ ∃ y, x.switching = some y ∧ y.target = .none := by
  unfold PortRec.request
  split
  · rename_i h
    split
    · rename_i hc
      exact Or.inl ⟨h, hc.symm⟩
    · exact advance_towardOff _ _ _ _ rfl rfl
  · rename_i sw h
    split
    · rename_i hc
      exact Or.inr ⟨sw, h, hc.symm⟩
    · split
      · rename_i hc
        exact Or.inl ⟨rfl, hc.2.symm⟩
      · exact advance_towardOff _ _ _ _ rfl rfl

/-- A switch request changes the record of its own port only (04 R75). -/
theorem request_port (loops : Vector LoopRec 6) (station : Option Ref) (u : SwitchUnit) (p q : PortIx) (x : Source) :
    rd (u.request loops station p x).ports p = ((rd u.ports p).request loops station (u.lineLow loops station p) x).1 ∧
    (q ≠ p → rd (u.request loops station p x).ports q = rd u.ports q) ∧
    (u.request loops station p x).dividers = u.dividers := by
  unfold SwitchUnit.request
  dsimp only
  split
  · exact ⟨by simp [SwitchUnit.atPort, SwitchUnit.phaseAsked], fun h => by simp [SwitchUnit.atPort, SwitchUnit.phaseAsked, h], rfl⟩
  · exact ⟨by simp [SwitchUnit.atPort], fun h => by simp [SwitchUnit.atPort, h], rfl⟩

/-! ### Retirement -/

/-- The removal of a binding from a list, if there is a binding (01 R21 step 2). -/
theorem unbind_shape (s : State) (k : LoopIx) (h : Handle) :
    s.unbind k h = { s with engine := { s.engine with lists := (s.unbind k h).engine.lists },
                            loops := { s.loops with loops := (s.unbind k h).loops.loops }, switch := (s.unbind k h).switch } := by
  unfold State.unbind
  split <;> rfl

/-- What a retirement moves: the engine's tables, the loop records, the ports and the port's notices; the notice effects are those of 01 R22. -/
theorem retire_shape (s : State) (p : PortIx) (why : RetireWhy) :
    let t := s.retire p why
    t = { s with engine := { t.engine with generations := s.engine.generations }, loops := { s.loops with loops := t.loops.loops },
                 switch := t.switch,
                 notices := match s.grantAt p with
                   | some g => s.notices.retirement p why g.gen
                   | none => s.notices } := by
  dsimp only
  cases hg : s.grantAt p with
  | none =>
    unfold State.retire
    simp only [hg]
  | some g =>
    unfold State.retire
    simp only [hg]
    generalize hu : s.leaveGroup p = u
    have h1 := leaveGroup_shape s p
    rw [hu] at h1
    cases hb : g.binding with
    | none =>
      rcases hr : g.retune with _ | r
      · simp only []
        rw [h1]
        rfl
      · cases r with
        | sameLoop d f tol =>
          simp only []
          rw [h1]
          rfl
        | newLoop t f tol cut =>
          simp only []
          rw [unbind_shape, h1]
          rfl
    | some b =>
      rcases hr : g.retune with _ | r
      · simp only []
        rw [unbind_shape, h1]
        rfl
      · cases r with
        | sameLoop d f tol =>
          simp only []
          rw [unbind_shape, h1]
          rfl
        | newLoop t f tol cut =>
          simp only []
          rw [unbind_shape (u.unbind b.loop (g.handle p)), unbind_shape u, h1]
          rfl

/-- A port whose grant is retired holds none, and a port that holds none still holds none. -/
theorem retire_gone (s : State) (p q : PortIx) (why : RetireWhy) (h : q = p ∨ s.grantAt q = none) : (s.retire p why).grantAt q = none := by
  cases hg : s.grantAt p with
  | none =>
    have e : s.retire p why = s := by
      unfold State.retire
      simp only [hg]
    rw [e]
    rcases h with h | h
    · rw [h, hg]
    · exact h
  | some g =>
    by_cases hq : q = p
    · subst hq
      unfold State.retire
      simp only [hg]
      exact rd_wr_same _ _ _
    · have h' : s.grantAt q = none := h.resolve_left hq
      have hu : (s.leaveGroup p).grantAt q = none := by
        obtain ⟨h1, h2⟩ := leaveGroup_effect s p g hg
        cases hgr : g.group with
        | none => rw [h1 hgr]; exact h'
        | some gi =>
          cases hgp : rd s.engine.groups gi with
          | none =>
            unfold State.leaveGroup
            simp only [hg, hgr, hgp]
            rw [grantAt_updGrant, if_neg hq]
            exact h'
          | some gr =>
            obtain ⟨h3, h4⟩ := h2 gi gr hgr hgp
            by_cases hl : (gr.members.filter (fun m => m != g.handle p)).length ≤ 1
            · rw [(h4 hl).2.2 q hq, h']
              simp
            · rw [(h3 (by omega)).2 q hq]
              exact h'
      have hb : ∀ (v : State) (k : LoopIx) (x : Handle), (v.unbind k x).grantAt q = v.grantAt q := by
        intro v k x
        rw [unbind_shape]
        rfl
      unfold State.retire
      simp only [hg]
      refine Eq.trans (grantAt_setGrant _ p q none) ?_
      rw [if_neg hq]
      cases g.binding <;> rcases g.retune with _ | (_ | _) <;> simp only [State.requestSwitch] <;>
        first
        | exact hu
        | exact (hb _ _ _).trans hu
        | exact (hb _ _ _).trans ((hb _ _ _).trans hu)

/-- What the retirement of both ports of a slot moves, and that neither holds a grant after it (01 R24). -/
theorem retireSlot_shape (s : State) (slot : SlotIx) (why : RetireWhy) :
    let t := s.retireSlot slot why
    t.grantAt (portOf slot .a) = none ∧ t.grantAt (portOf slot .b) = none ∧
    t = { s with engine := { t.engine with generations := s.engine.generations }, loops := { s.loops with loops := t.loops.loops },
                 switch := t.switch, notices := t.notices } := by
  refine oneMoment_keeps (P := fun u => u = { s with switch := u.switch }) (Q := fun t => t.grantAt (portOf slot .a) = none ∧
    t.grantAt (portOf slot .b) = none ∧
    t = { s with engine := { t.engine with generations := s.engine.generations }, loops := { s.loops with loops := t.loops.loops },
                 switch := t.switch, notices := t.notices }) _ ?_ ?_ ?_ rfl
  · intro u hu
    refine ⟨retire_gone _ _ _ _ (Or.inr (retire_gone _ _ _ _ (Or.inl rfl))), retire_gone _ _ _ _ (Or.inl rfl), ?_⟩
    rw [retire_shape (u.retire (portOf slot .a) why) (portOf slot .b) why]
    dsimp only
    rw [retire_shape u (portOf slot .a) why, hu]
  · intro u n b hu
    rw [hu]
  · intro u n b hu
    refine ⟨hu.1, hu.2.1, ?_⟩
    have h := hu.2.2
    rw [State.mk.injEq] at h ⊢
    obtain ⟨h1, h2, h3, h4, h5, -, h7, -, h9, h10, h11⟩ := h
    exact ⟨h1, h2, h3, h4, h5, rfl, h7, rfl, h9, h10, h11⟩

end Sys2Proof.Machine
end

