-- ==== Sys2Proof/Laws/Loops.lean ====
section
/-! SUPPORT. Loop records: what starts, windows, timers and changes of the station reference keep sound (Table 3-1). -/

namespace Sys2Proof.Machine

variable {w : Bool}

/-! ### Records -/

theorem LoopRec.idle_sound (station : Option Ref) (c : Option FailCause) : ({ LoopRec.idle with failed := c } : LoopRec).Sound station where
  entry := rfl
  quarantine := fun _ => rfl
  atRest := fun _ => ⟨rfl, rfl⟩
  waiting := by intro h; cases h
  referenced := by rintro (h | h | h) <;> cases h
  lockTimer := by rintro (h | h | h) <;> cases h
  trackingAuto := by intro h; cases h
  locked := by intro h; cases h
  holdover := by intro h; cases h
  countAtStart := fun _ => rfl
  countTracking := by intro h; cases h
  countLocked := by rintro (h | h) <;> cases h

theorem LoopRec.started_sound (limit : Nat) (station : Option Ref) (i : EntryIx) (m : LockMode) :
    (LoopRec.started limit station i m).Sound station := by
  cases station <;> cases m <;> constructor <;> simp [LoopRec.started, startTimer, LoopRec.running]

/-- A window keeps a loop record sound. -/
theorem LoopRec.window_sound (l : LoopRec) (station : Option Ref) (limit : Nat) (e : WindowError) (hw : l.hasWindows station = true)
    (h : l.Sound station) : (l.window limit e).1.Sound station := by
  obtain ⟨h1, h2, h3, h4, h5, h6, h7, h8, h9, h10, h11, h12⟩ := h
  obtain ⟨st, failed, run, good, last, timer⟩ := l
  cases run with
  | none => cases st <;> simp_all [LoopRec.running, LoopRec.hasWindows]
  | some r =>
    obtain ⟨en, mode⟩ := r
    cases mode with
    | timed t =>
      cases st <;> simp_all [LoopRec.running, LoopRec.hasWindows, LoopRec.window] <;> constructor <;>
        simp_all [LoopRec.running]
    | auto =>
      cases st <;> simp only [LoopRec.window, LoopRec.judge, LoopRec.loseLock, Option.map_some] <;> (repeat' split) <;>
        simp_all [LoopRec.running, LoopRec.hasWindows] <;> constructor <;> simp_all [LoopRec.running] <;> first | rfl | omega

/-- A change of the station reference keeps a loop record sound. -/
theorem LoopRec.stationChanged_sound (l : LoopRec) (old new : Option Ref) (c : StationChange) (limit : Nat)
    (hc : stationChange old new = some c) (h : l.Sound old) : (l.stationChanged limit c).1.Sound new := by
  obtain ⟨h1, h2, h3, h4, h5, h6, h7, h8, h9, h10, h11, h12⟩ := h
  obtain ⟨st, failed, run, good, last, timer⟩ := l
  cases old <;> cases new <;> simp [stationChange] at hc <;> (try cases hc) <;> subst_vars <;>
    cases st <;> simp [LoopRec.stationChanged] <;> (repeat' split) <;> simp_all [LoopRec.running] <;> constructor <;>
    simp_all [LoopRec.running] <;>
    first | rfl | (rename_i hq; obtain ⟨a, ha, hm⟩ := hq; intro x hx; simp_all)

/-- One millisecond keeps a loop record sound. -/
theorem LoopRec.tick_sound (l : LoopRec) (station : Option Ref) (h : l.Sound station) : l.tick.Sound station := by
  have key : ∀ t : Option LoopTimer, (t.map (fun t => { t with remaining := t.remaining - 1 })).map LoopTimer.kind = t.map LoopTimer.kind := by
    intro t; cases t <;> rfl
  obtain ⟨h1, h2, h3, h4, h5, h6, h7, h8, h9, h10, h11, h12⟩ := h
  unfold LoopRec.tick
  split
  · exact ⟨h1, h2, h3, h4, h5, h6, h7, h8, h9, h10, h11, h12⟩
  · refine ⟨h1, h2, ?_, h4, h5, ?_, h7, ?_, ?_, h10, h11, h12⟩
    · intro h; obtain ⟨a, c⟩ := h3 h; exact ⟨a, by simp [c]⟩
    · intro h; rw [← h6 h]; exact key _
    · intro h; simp [h8 h]
    · intro h; rw [← h9 h]; exact key _

/-! ### The six loops -/

/-- Every loop record but those of an excluded set is sound. -/
def LoopsSoundBut (x : LoopIx → Prop) (s : State) : Prop := ∀ k, ¬ x k → (s.loop k).Sound s.station.station

theorem setLoop_soundBut (x : LoopIx → Prop) (s : State) (k : LoopIx) (l : LoopRec) (hl : ¬ x k → l.Sound s.station.station)
    (h : LoopsSoundBut x s) : LoopsSoundBut x (s.setLoop k l) := by
  intro j hj
  rw [setLoop_loop]
  split
  · rename_i e; subst e; exact hl hj
  · exact h j hj

/-- Soundness of one loop record rests on the loop records and the station block alone. -/
theorem loopSound_congr (s : State) {t : State} (k : LoopIx) (hl : t.loops.loops = s.loops.loops) (hb : t.station = s.station)
    (h : (s.loop k).Sound s.station.station) : (t.loop k).Sound t.station.station := by
  unfold State.loop at h ⊢
  rw [hl, hb]
  exact h

/-- Soundness of the loop records rests on the loop records and the station block alone. -/
theorem soundBut_congr {x : LoopIx → Prop} {s t : State} (hl : t.loops.loops = s.loops.loops) (hb : t.station = s.station)
    (h : LoopsSoundBut x s) : LoopsSoundBut x t := fun j hj => loopSound_congr s j hl hb (h j hj)

/-- Every elementary update of the grant engine keeps the loop records sound. -/
theorem EngineStep.loops {x : LoopIx → Prop} {s t : State} (h : EngineStep w s t) (hs : LoopsSoundBut x s) : LoopsSoundBut x t := by
  cases h with
  | start k i =>
    unfold State.startLoop
    split
    · exact setLoop_soundBut x s k _ (fun _ => LoopRec.started_sound _ _ _ _) hs
    · exact hs
  | stop k =>
    have h1 := setLoop_soundBut x s k LoopRec.idle (fun _ => LoopRec.idle_sound _ none) hs
    exact soundBut_congr (s := s.setLoop k LoopRec.idle) (by simp only [State.stopLoop, State.portsLoopIdle])
      (by simp only [State.stopLoop, State.portsLoopIdle]) h1
  | restart k i =>
    have h1 := setLoop_soundBut x s k _ (fun _ => LoopRec.started_sound s.loops.acquireLimit s.station.station i (planMode s.plan i)) hs
    exact soundBut_congr (s := s.setLoop k _) (by simp only [State.restartLoop, State.advancePorts])
      (by simp only [State.restartLoop, State.advancePorts]) h1
  | generation p n => exact soundBut_congr rfl rfl hs
  | events k l => exact soundBut_congr (by simp [State.setLockEvents]) (by simp) hs
  | grant p g => exact soundBut_congr (by simp) (by simp) hs
  | list k l => exact soundBut_congr (by simp) (by simp) hs
  | group gi g => exact soundBut_congr (by simp) (by simp) hs
  | notices f => exact soundBut_congr (by simp) (by simp) hs
  | cause c _ => exact soundBut_congr (by simp) (by simp) hs
  | request p y => exact soundBut_congr (by simp) (by simp) hs
  | give g k v => exact soundBut_congr (by simp) (by simp) hs
  | release g => exact soundBut_congr (by simp) (by simp) hs
  | reports p l => exact soundBut_congr (by simp) (by simp) hs
  | moment n b => exact soundBut_congr rfl rfl hs

theorem EnginePath.loops {x : LoopIx → Prop} {s t : State} (h : EnginePath w s t) (hs : LoopsSoundBut x s) : LoopsSoundBut x t :=
  h.keeps (fun _ _ hst hs => hst.loops hs) hs

/-- Every action of the grant engine keeps the loop records sound. -/
theorem EnginePath.loopsSound {s t : State} (h : EnginePath w s t) (hs : s.LoopsSound) : t.LoopsSound := fun k =>
  h.loops (x := fun _ => False) (fun j _ => hs j) k id

/-- Up to the rescue, a loop failure keeps the loop records sound but for that of the failing loop. -/
theorem failAndRescue_soundBut (s : State) (k : LoopIx) (c : FailCause) (hs : s.LoopsSound) :
    LoopsSoundBut (fun j => j = k) (s.failAndRescue k c) := by
  refine oneMoment_keeps (P := State.LoopsSound) _ ?_ (fun _ _ _ h => h) (fun _ _ _ h => h) hs
  intro s hs
  have h0 := (takeAllLocks_path (w := true) s k).loopsSound hs
  have h1 : LoopsSoundBut (fun j => j = k) ((s.takeAllLocks k).markFailed k c) :=
    setLoop_soundBut _ _ k _ (fun h => absurd rfl h) (fun j _ => h0 j)
  exact (rescue_path _ k).loops h1

/-- A loop failure keeps the loop records sound. -/
theorem failLoop_loopsSound (s : State) (k : LoopIx) (c : FailCause) (hs : s.LoopsSound) : (s.failLoop k c).LoopsSound := by
  intro j
  have h2 := failAndRescue_soundBut s k c hs
  unfold State.failLoop
  have h4 : (((s.failAndRescue k c).setLoop k { LoopRec.idle with failed := some c }).loop j).Sound
      ((s.failAndRescue k c).setLoop k { LoopRec.idle with failed := some c }).station.station := by
    rw [setLoop_loop, State.setLoop_station]
    split
    · exact LoopRec.idle_sound _ _
    · rename_i hj; exact h2 j hj
  exact loopSound_congr _ j (by simp only [State.fillLatch, State.raiseCause, State.quarantine, State.portsLoopIdle])
    (by simp only [State.fillLatch, State.raiseCause, State.quarantine, State.portsLoopIdle]) h4

/-- A change of the station reference keeps the loop records sound. -/
theorem changeStation_loopsSound (s : State) (new : Option Ref) (hs : s.LoopsSound) : (s.changeStation new).LoopsSound := by
  unfold State.changeStation
  split
  · exact hs
  · rename_i c hc
    intro k
    have h1 : ((s.loopsAt new c).loop k).Sound (s.loopsAt new c).station.station := by
      have hk : (s.loopsAt new c).loop k = ((s.loop k).stationChanged s.loops.holdoverLimit c).1 := rd_mapCells _ _ _
      rw [hk]
      exact LoopRec.stationChanged_sound _ _ _ _ _ hc (hs k)
    exact loopSound_congr (s.loopsAt new c) k (by simp) (by simp) h1

end Sys2Proof.Machine
end

