-- ==== Sys2Proof/Laws/Ports.lean ====
section
/-! SUPPORT. Port records: every operation of the port switch unit keeps them sound, beside the loops and the station reference it is given (04 R75 to R85). -/

namespace Sys2Proof.Machine

variable {w : Bool} {loops : Vector LoopRec 6} {station : Option Ref}

/-! ### One port -/

theorem PortRec.sound_of_still (r : PortRec) (h : r.switching = none) : r.Sound loops station where
  beforeStasis := fun sw e => by rw [h] at e; cases e
  inStasis := fun sw e => by rw [h] at e; cases e
  lostTarget := fun sw e => by rw [h] at e; cases e

theorem silent_none : silentSource loops station .none = false := rfl

/-- What a port does at once leaves it sound whatever it was, when a lost target is a loop. -/
theorem PortRec.advance_sound (r : PortRec) (h : ∀ sw, r.switching = some sw → sw.lost = true → ∃ k d g, sw.target = .loop k d g) :
    (r.advance loops station).1.Sound loops station := by
  unfold PortRec.advance
  split
  · rename_i e; exact r.sound_of_still e
  · rename_i sw e
    split
    · split
      · exact PortRec.sound_of_still _ rfl
      · rename_i hl
        split
        · exact PortRec.sound_of_still _ rfl
        · rename_i hq
          simp only [Bool.or_eq_true, beq_iff_eq, Bool.and_eq_true, Option.isNone_iff_eq_none, not_or, not_and] at hq
          refine ⟨?_, ?_, ?_⟩
          · intro x hx hs; cases hx; cases hs
          · intro x hx _; cases hx
            exact ⟨by simpa using hl, hq.1, fun hg => by simpa using hq.2 hg⟩
          · intro x hx hs; cases hx; exact absurd hs hl
    · rename_i hc
      simp only [Bool.or_eq_true, beq_iff_eq, not_or] at hc
      refine ⟨?_, ?_, h⟩
      · intro x _ _; exact ⟨hc.1.2, by simpa using hc.2⟩
      · intro x hx hs
        rw [e] at hx; cases hx
        exact absurd hs hc.1.1

theorem targetIdle_loop (x : Source) (h : targetIdle loops x = true) : ∃ k d g, x = .loop k d g := by
  cases x with
  | loop k d g => exact ⟨k, d, g, rfl⟩
  | none => cases h
  | fallback fd => cases h

theorem PortRec.request_sound (r : PortRec) (low : Bool) (x : Source) (h : r.Sound loops station) :
    (r.request loops station low x).1.Sound loops station := by
  unfold PortRec.request
  split
  · split
    · exact h
    · apply PortRec.advance_sound
      intro sw e hl; cases e; exact targetIdle_loop _ hl
  · split
    · exact h
    · split
      · exact PortRec.sound_of_still _ rfl
      · apply PortRec.advance_sound
        intro sw e hl; cases e; exact targetIdle_loop _ hl

theorem PortRec.loopGone_sound (r : PortRec) (k : LoopIx)
    (h : ∀ sw, r.switching = some sw → sw.lost = true → ∃ k d g, sw.target = .loop k d g) :
    (r.loopGone loops station k).1.Sound loops station := by
  apply PortRec.advance_sound
  intro sw e hl
  cases hs : r.switching with
  | none => rw [hs] at e; cases e
  | some sw0 =>
    rw [hs] at e
    simp only [Option.map_some, Option.some.injEq] at e
    subst e
    split at hl
    · rename_i hk
      rw [if_pos hk]
      cases ht : sw0.target with
      | loop j d g => exact ⟨j, d, g, rfl⟩
      | none => rw [ht] at hk; cases hk
      | fallback fd => rw [ht] at hk; cases hk
    · rename_i hk
      rw [if_neg hk]
      exact h sw0 hs hl

theorem PortRec.beginStasis_sound (r : PortRec) (h : r.Sound loops station) : (r.beginStasis loops station).1.Sound loops station := by
  apply PortRec.advance_sound
  intro sw e hl
  cases hs : r.switching with
  | none => rw [hs] at e; cases e
  | some sw0 => rw [hs] at e; cases e; exact h.lostTarget sw0 hs hl

theorem PortRec.lowPhase_sound (r : PortRec) (o : CountOrigin) (h : r.Sound loops station) : (PortRec.lowPhase o r).1.Sound loops station := by
  unfold PortRec.lowPhase
  split
  · exact PortRec.sound_of_still _ rfl
  · exact h

theorem PortRec.unalign_sound (r : PortRec) (g : GroupIx) (h : r.Sound loops station) : (r.unalign loops station g).1.Sound loops station := by
  apply PortRec.advance_sound
  intro sw e hl
  cases hs : r.switching with
  | none => rw [hs] at e; cases e
  | some sw0 =>
    rw [hs] at e; cases e
    obtain ⟨k, d, g0, ht⟩ := h.lostTarget sw0 hs hl
    simp only [ht]
    cases g0 with
    | none => exact ⟨k, d, none, rfl⟩
    | some j =>
      show ∃ k' d' g', (if j = g then Source.loop k d Option.none else Source.loop k d (some j)) = .loop k' d' g'
      split
      · exact ⟨k, d, none, rfl⟩
      · exact ⟨k, d, some j, rfl⟩

/-- A new position in the count leaves a port sound. -/
theorem PortRec.count_sound (r : PortRec) (n : Nat) (o : CountOrigin) (h : r.Sound loops station) :
    ({ r with count := n, origin := o } : PortRec).Sound loops station :=
  ⟨h.beforeStasis, h.inStasis, h.lostTarget⟩

theorem PortRec.rollover_sound (r : PortRec) (g : GroupIx) (v : Nat) (o : CountOrigin) (h : r.Sound loops station) :
    (PortRec.rollover g v o r).1.Sound loops station := by
  unfold PortRec.rollover
  split
  · split
    · exact r.count_sound 0 o h
    · exact h
  · split
    · split
      · exact PortRec.sound_of_still _ rfl
      · exact h
    · split
      · exact r.count_sound 0 o h
      · exact h

/-! ### Lines -/

/-- A divider's line comes round with its count: whole counts more change no level (04 R72). -/
theorem dividerLow_add (d half m : Nat) : dividerLow d (half + 2 * (d * m)) = dividerLow d half := by
  unfold dividerLow
  rw [show half + 2 * (d * m) = half + 2 * d * m by ring, Nat.add_mul_mod_self_left]

/-- The takeover of a pending value changes no edge of a divider that divides the value which was in force (04 R81, R82). -/
theorem dividerLow_takeover (d half value n : Nat) (o : CountOrigin) (input : ClockInput) (h : d ∣ value) :
    dividerLow d (half + 2 * (CountOrigin.takeover o value n).lead input) = dividerLow d (half + 2 * o.lead input) := by
  obtain ⟨c, rfl⟩ := h
  rw [show (CountOrigin.takeover o (d * c) n).lead input = o.lead input + d * c * Config.laps n from rfl,
    show half + 2 * (o.lead input + d * c * Config.laps n) = half + 2 * o.lead input + 2 * (d * (c * Config.laps n)) by ring, dividerLow_add]

/-- A source that loses its alignment keeps its loop and divider, and every other source is as it was (04 R83). -/
theorem Source.unalign_eq (g : GroupIx) (x : Source) : x.unalign g = x ∨ ∃ k d, x = .loop k d (some g) ∧ x.unalign g = .loop k d Option.none := by
  cases x with
  | none => exact Or.inl rfl
  | fallback fd => exact Or.inl rfl
  | loop k d h =>
    cases h with
    | none => exact Or.inl rfl
    | some j =>
      by_cases e : j = g
      · subst e; exact Or.inr ⟨k, d, rfl, if_pos rfl⟩
      · exact Or.inl (if_neg e)

@[simp] theorem Source.unalign_input (g : GroupIx) (x : Source) : (x.unalign g).input = x.input := by
  rcases x.unalign_eq g with e | ⟨k, d, rfl, e⟩
  · rw [e]
  · rw [e]; rfl

@[simp] theorem Source.unalign_divider (g : GroupIx) (x : Source) : (x.unalign g).divider = x.divider := by
  rcases x.unalign_eq g with e | ⟨k, d, rfl, e⟩
  · rw [e]
  · rw [e]; rfl

@[simp] theorem Source.unalign_silent (g : GroupIx) (x : Source) : silentSource loops station (x.unalign g) = silentSource loops station x := by
  rcases x.unalign_eq g with e | ⟨k, d, rfl, e⟩
  · rw [e]
  · rw [e]; rfl

@[simp] theorem Source.unalign_none (g : GroupIx) (x : Source) : (x.unalign g == Source.none) = (x == Source.none) := by
  rcases x.unalign_eq g with e | ⟨k, d, rfl, e⟩
  · rw [e]
  · rw [e]; rfl

/-- What a port does at once by the state of its sources changes no level: its line is low already where the record changes (04 R75 to R77). -/
theorem PortRec.advance_lineLow (r : PortRec) (m : Nat) : (r.advance loops station).1.lineLow loops station m = r.lineLow loops station m := by
  unfold PortRec.advance
  split
  · rfl
  · rename_i sw e
    split
    · rename_i h
      have low : r.lineLow loops station m = true := by
        simp only [PortRec.lineLow, PortRec.inStasis, e]
        simp only [Bool.or_eq_true] at h ⊢
        tauto
      rw [low]
      split
      · rfl
      · split
        · rename_i q
          simp only [Bool.or_eq_true, beq_iff_eq, Bool.and_eq_true] at q
          rcases q with q | q
          · simp [PortRec.completed, PortRec.lineLow, q]
          · simp [PortRec.completed, PortRec.lineLow, q.2]
        · simp [PortRec.lineLow, PortRec.inStasis]
    · rfl

/-- A port that loses its alignment keeps its line (04 R83, R84). -/
theorem PortRec.unalign_lineLow (r : PortRec) (g : GroupIx) (m : Nat) :
    (r.unalign loops station g).1.lineLow loops station m = r.lineLow loops station m := by
  unfold PortRec.unalign
  rw [PortRec.advance_lineLow]
  cases e : r.switching <;> simp [PortRec.lineLow, PortRec.inStasis, PortRec.position, e]

/-! ### The whole unit -/

@[simp] theorem begun_ports (u : SwitchUnit) : u.begun.ports = u.ports := rfl
@[simp] theorem begun_dividers (u : SwitchUnit) : u.begun.dividers = u.dividers := rfl
@[simp] theorem begun_reports (u : SwitchUnit) : u.begun.reports = u.reports := rfl
@[simp] theorem begun_draws (u : SwitchUnit) : u.begun.draws = u.draws := rfl
@[simp] theorem begun_sameMoment (u : SwitchUnit) : u.begun.sameMoment = u.sameMoment := rfl
@[simp] theorem begun_starts (u : SwitchUnit) : u.begun.starts = u.starts + 1 := rfl
@[simp] theorem establish_ports (u : SwitchUnit) (g : GroupIx) (k : LoopIx) (v : Nat) : (u.establish g k v).ports = u.ports := rfl
@[simp] theorem establish_reports (u : SwitchUnit) (g : GroupIx) (k : LoopIx) (v : Nat) : (u.establish g k v).reports = u.reports := rfl
@[simp] theorem establish_draws (u : SwitchUnit) (g : GroupIx) (k : LoopIx) (v : Nat) : (u.establish g k v).draws = u.draws := rfl
@[simp] theorem establish_starts (u : SwitchUnit) (g : GroupIx) (k : LoopIx) (v : Nat) : (u.establish g k v).starts = u.starts + 1 := rfl
@[simp] theorem establish_sameMoment (u : SwitchUnit) (g : GroupIx) (k : LoopIx) (v : Nat) : (u.establish g k v).sameMoment = u.sameMoment := rfl

@[simp] theorem atAllPorts_dividers (u : SwitchUnit) (f : PortRec → PortStep) : (u.atAllPorts f).dividers = u.dividers := by simp only [SwitchUnit.atAllPorts]
@[simp] theorem atAllPorts_draws (u : SwitchUnit) (f : PortRec → PortStep) : (u.atAllPorts f).draws = u.draws := by simp only [SwitchUnit.atAllPorts]
@[simp] theorem atAllPorts_sameMoment (u : SwitchUnit) (f : PortRec → PortStep) : (u.atAllPorts f).sameMoment = u.sameMoment := by simp only [SwitchUnit.atAllPorts]
@[simp] theorem atAllPorts_starts (u : SwitchUnit) (f : PortRec → PortStep) : (u.atAllPorts f).starts = u.starts := by simp only [SwitchUnit.atAllPorts]

/-- What a walk over every port leaves at one of them, and its reports (04 R79). -/
theorem atAllPorts_port (u : SwitchUnit) (f : PortRec → PortStep) (p : PortIx) :
    rd (u.atAllPorts f).ports p = (f (rd u.ports p)).1 ∧ rd (u.atAllPorts f).reports p = rd u.reports p ++ (f (rd u.ports p)).2 := by
  simp [SwitchUnit.atAllPorts]

/-- What a loop gone IDLE leaves at one port (04 R77, R85). -/
theorem loopIdle_port (u : SwitchUnit) (k : LoopIx) (p : PortIx) :
    rd (u.loopIdle loops station k).ports p = ((rd u.ports p).loopGone loops station k).1 ∧
    rd (u.loopIdle loops station k).reports p = rd u.reports p ++ ((rd u.ports p).loopGone loops station k).2 :=
  atAllPorts_port u (PortRec.loopGone loops station k) p

/-- The dividers of a loop gone IDLE stop for good, and no other does (04 R80). -/
@[simp] theorem loopIdle_dividers (u : SwitchUnit) (k : LoopIx) (g : GroupIx) :
    rd (u.loopIdle loops station k).dividers g = (rd u.dividers g).map (fun dv => if dv.loop = k then { dv with stopped := true } else dv) := by
  simp [SwitchUnit.loopIdle]

@[simp] theorem loopIdle_draws (u : SwitchUnit) (k : LoopIx) : (u.loopIdle loops station k).draws = u.draws := by
  simp only [SwitchUnit.loopIdle, atAllPorts_draws]

@[simp] theorem loopIdle_starts (u : SwitchUnit) (k : LoopIx) : (u.loopIdle loops station k).starts = u.starts := by
  simp only [SwitchUnit.loopIdle, atAllPorts_starts]

@[simp] theorem loopIdle_sameMoment (u : SwitchUnit) (k : LoopIx) : (u.loopIdle loops station k).sameMoment = u.sameMoment := by
  simp only [SwitchUnit.loopIdle, atAllPorts_sameMoment]

/-- A port at rest keeps its record whatever loop goes IDLE. -/
theorem loopGone_still (r : PortRec) (k : LoopIx) (h : r.switching = none) : r.loopGone loops station k = (r, []) := by
  unfold PortRec.loopGone PortRec.advance
  rw [h]
  cases r
  cases h
  rfl

/-! ### The twenty-four ports -/

/-- A loop that starts, or that leaves a state in which its output is absent, makes no source silent. -/
theorem PortRec.sound_fewer {loops' : Vector LoopRec 6} {station' : Option Ref} (r : PortRec)
    (hq : ∀ x, silentSource loops station x = false → silentSource loops' station' x = false) (h : r.Sound loops station) :
    r.Sound loops' station' :=
  ⟨fun sw e hs => ⟨(h.beforeStasis sw e hs).1, hq _ (h.beforeStasis sw e hs).2⟩,
   fun sw e hs => ⟨(h.inStasis sw e hs).1, (h.inStasis sw e hs).2.1, fun hg => hq _ ((h.inStasis sw e hs).2.2 hg)⟩,
   h.lostTarget⟩

/-- Soundness of the ports rests on the port records, the loop records and the station reference alone. -/
theorem portsSound_congr {s t : State} (hp : t.switch.ports = s.switch.ports) (hl : t.loops.loops = s.loops.loops)
    (hb : t.station.station = s.station.station) (h : s.PortsSound) : t.PortsSound := by
  intro p
  rw [hp, hl, hb]
  exact h p

theorem request_ports (u : SwitchUnit) (p q : PortIx) (x : Source) (h : ∀ j, (rd u.ports j).Sound loops station) :
    (rd (u.request loops station p x).ports q).Sound loops station := by
  obtain ⟨h1, h2, -⟩ := request_port loops station u p q x
  by_cases e : q = p
  · subst e; rw [h1]; exact PortRec.request_sound _ _ _ (h q)
  · rw [h2 e]; exact h q

theorem releaseDivider_ports (u : SwitchUnit) (g : GroupIx) (q : PortIx) (h : ∀ j, (rd u.ports j).Sound loops station) :
    (rd (u.releaseDivider loops station g).ports q).Sound loops station := by
  unfold SwitchUnit.releaseDivider SwitchUnit.atAllPorts
  simp only [rd_mapCells]
  exact PortRec.unalign_sound _ g (h q)

/-- The release of a divider changes no line (04 R84). -/
theorem releaseDivider_lineLow (u : SwitchUnit) (g : GroupIx) (p : PortIx) :
    (u.releaseDivider loops station g).lineLow loops station p = u.lineLow loops station p := by
  unfold SwitchUnit.lineLow SwitchUnit.releaseDivider SwitchUnit.atAllPorts
  simp only [rd_mapCells]
  exact PortRec.unalign_lineLow _ g _

/-- A value given to a group, its divider moved or not, changes no line (04 R82, R83). -/
theorem giveDivider_lineLow (u : SwitchUnit) (g : GroupIx) (k : LoopIx) (v : Nat) (p : PortIx) :
    (u.giveDivider loops station g k v).lineLow loops station p = u.lineLow loops station p := by
  unfold SwitchUnit.giveDivider
  split
  · rfl
  · split
    · split <;> rfl
    · unfold SwitchUnit.lineLow SwitchUnit.atAllPorts
      simp only [establish_ports, establish_draws, rd_mapCells]
      exact PortRec.unalign_lineLow _ g _

/-- What the release of a divider leaves at one port (04 R84). -/
theorem releaseDivider_port (u : SwitchUnit) (g : GroupIx) (p : PortIx) :
    rd (u.releaseDivider loops station g).ports p = ((rd u.ports p).unalign loops station g).1 ∧
    rd (u.releaseDivider loops station g).reports p = rd u.reports p ++ ((rd u.ports p).unalign loops station g).2 :=
  atAllPorts_port u (PortRec.unalign loops station g) p

/-- What a rollover leaves at one port (04 R81). -/
theorem rollover_port (u : SwitchUnit) (g : GroupIx) (dv : GroupDivider) (p : PortIx) :
    rd (u.rollover g dv).ports p = (PortRec.rollover g dv.next (dv.nextOrigin u.starts) (rd u.ports p)).1 ∧
    rd (u.rollover g dv).reports p = rd u.reports p ++ (PortRec.rollover g dv.next (dv.nextOrigin u.starts) (rd u.ports p)).2 :=
  atAllPorts_port u (PortRec.rollover g dv.next (dv.nextOrigin u.starts)) p

@[simp] theorem rollover_draws (u : SwitchUnit) (g : GroupIx) (dv : GroupDivider) : (u.rollover g dv).draws = u.draws := by
  simp only [SwitchUnit.rollover, begun_draws, atAllPorts_draws]
@[simp] theorem rollover_starts (u : SwitchUnit) (g : GroupIx) (dv : GroupDivider) : (u.rollover g dv).starts = u.starts + 1 := by
  simp only [SwitchUnit.rollover, begun_starts, atAllPorts_starts]
@[simp] theorem rollover_sameMoment (u : SwitchUnit) (g : GroupIx) (dv : GroupDivider) : (u.rollover g dv).sameMoment = u.sameMoment := by
  simp only [SwitchUnit.rollover, begun_sameMoment, atAllPorts_sameMoment]
@[simp] theorem releaseDivider_draws (u : SwitchUnit) (g : GroupIx) : (u.releaseDivider loops station g).draws = u.draws := by
  simp only [SwitchUnit.releaseDivider, atAllPorts_draws]
@[simp] theorem releaseDivider_starts (u : SwitchUnit) (g : GroupIx) : (u.releaseDivider loops station g).starts = u.starts := by
  simp only [SwitchUnit.releaseDivider, atAllPorts_starts]
@[simp] theorem releaseDivider_sameMoment (u : SwitchUnit) (g : GroupIx) : (u.releaseDivider loops station g).sameMoment = u.sameMoment := by
  simp only [SwitchUnit.releaseDivider, atAllPorts_sameMoment]

theorem giveDivider_ports (u : SwitchUnit) (g : GroupIx) (k : LoopIx) (v : Nat) (q : PortIx) (h : ∀ j, (rd u.ports j).Sound loops station) :
    (rd (u.giveDivider loops station g k v).ports q).Sound loops station := by
  unfold SwitchUnit.giveDivider
  split
  · exact h q
  · split
    · split
      · exact h q
      · exact h q
    · unfold SwitchUnit.atAllPorts
      simp only [establish_ports, rd_mapCells]
      exact PortRec.unalign_sound _ g (h q)

theorem advanceAll_ports (u : SwitchUnit) (q : PortIx)
    (h : ∀ sw, (rd u.ports q).switching = some sw → sw.lost = true → ∃ k d g, sw.target = .loop k d g) :
    (rd (u.advanceAll loops station).ports q).Sound loops station := by
  unfold SwitchUnit.advanceAll SwitchUnit.atAllPorts
  simp only [rd_mapCells]
  exact PortRec.advance_sound _ h

theorem loopIdle_ports (u : SwitchUnit) (k : LoopIx) (q : PortIx)
    (h : ∀ sw, (rd u.ports q).switching = some sw → sw.lost = true → ∃ k d g, sw.target = .loop k d g) :
    (rd (u.loopIdle loops station k).ports q).Sound loops station := by
  unfold SwitchUnit.loopIdle SwitchUnit.atAllPorts
  simp only [rd_mapCells]
  exact PortRec.loopGone_sound _ k h

/-- Every elementary update of the grant engine keeps the port records sound. -/
theorem EngineStep.ports {s t : State} (h : EngineStep w s t) (hs : s.PortsSound) : t.PortsSound := by
  cases h with
  | start k i =>
    unfold State.startLoop
    split
    · rename_i hk
      intro p
      refine PortRec.sound_fewer _ ?_ (hs p)
      intro x hx
      cases x with
      | none => rfl
      | fallback fd => exact hx
      | loop j d g =>
        by_cases hj : j = k
        · subst hj
          simp only [silentSource, Bool.or_eq_false_iff, beq_eq_false_iff_ne] at hx
          exact absurd hk.1 hx.2
        · simp only [silentSource, State.setLoop] at hx ⊢
          rw [rd_wr_ne _ _ _ _ hj]
          exact hx
    · exact hs
  | stop k => exact fun p => loopIdle_ports _ k p (hs p).lostTarget
  | restart k i => exact fun p => advanceAll_ports _ p (hs p).lostTarget
  | generation p n => exact portsSound_congr rfl rfl rfl hs
  | events k l => exact portsSound_congr rfl rfl rfl hs
  | grant p g => exact portsSound_congr rfl rfl rfl hs
  | list k l => exact portsSound_congr rfl rfl rfl hs
  | group gi g => exact portsSound_congr rfl rfl rfl hs
  | notices f => exact portsSound_congr rfl rfl rfl hs
  | cause c _ => exact portsSound_congr rfl rfl rfl hs
  | request p y => exact fun q => request_ports _ p q y hs
  | give g k v => exact fun q => giveDivider_ports _ g k v q hs
  | release g => exact fun q => releaseDivider_ports _ g q hs
  | reports p l => exact portsSound_congr rfl rfl rfl hs
  | moment n b => exact portsSound_congr rfl rfl rfl hs

/-- Every action of the grant engine keeps the port records sound. -/
theorem EnginePath.portsSound {s t : State} (h : EnginePath w s t) (hs : s.PortsSound) : t.PortsSound :=
  h.keeps (fun _ _ hst hs => hst.ports hs) hs

/-- Up to the rescue, a loop failure keeps the port records sound. -/
theorem failAndRescue_portsSound (s : State) (k : LoopIx) (c : FailCause) (hs : s.PortsSound) : (s.failAndRescue k c).PortsSound := by
  refine oneMoment_keeps (P := State.PortsSound) _ ?_ (fun _ _ _ h => h) (fun _ _ _ h => h) hs
  intro s hs
  have h0 := (takeAllLocks_path (w := true) s k).portsSound hs
  have h1 : ((s.takeAllLocks k).markFailed k c).PortsSound := by
    intro p
    refine PortRec.sound_fewer _ ?_ (h0 p)
    intro x hx
    cases x with
    | none => rfl
    | fallback fd => exact hx
    | loop j d g =>
      by_cases hj : j = k
      · subst hj
        simp only [silentSource, State.markFailed, State.setLoop, rd_wr_same] at hx ⊢
        exact hx
      · simp only [silentSource, State.markFailed, State.setLoop] at hx ⊢
        rw [rd_wr_ne _ _ _ _ hj]
        exact hx
  exact (rescue_path _ k).portsSound h1

/-- A loop failure keeps the port records sound. -/
theorem failLoop_portsSound (s : State) (k : LoopIx) (c : FailCause) (hs : s.PortsSound) : (s.failLoop k c).PortsSound :=
  fun p => loopIdle_ports _ k p (failAndRescue_portsSound s k c hs p).lostTarget

/-- A change of the station reference keeps the port records sound. -/
theorem changeStation_portsSound (s : State) (new : Option Ref) (hs : s.PortsSound) : (s.changeStation new).PortsSound := by
  unfold State.changeStation
  split
  · exact hs
  · intro p
    refine advanceAll_ports _ p ?_
    intro sw e hl
    refine (hs p).lostTarget sw ?_ hl
    simp only [SwitchUnit.recoverFrom, SwitchUnit.atAllPorts, begun_ports, rd_mapCells, State.loopsAt] at e
    unfold PortRec.recover at e
    split at e <;> exact e

end Sys2Proof.Machine
end

