-- ==== Sys2Proof/Laws/Rescue.lean ====
section
/-! SUPPORT. The rescue of a group in steps: what each walk over its members does, and the search for a loop in its order (05 R103 to R105, 01 R9). -/

namespace Sys2Proof.Machine

/-! ### Grant records -/
/-- Grant records changed one after another. -/
def updGrants (v : Vector (Option Grant) 24) (l : List (PortIx × (Grant → Grant))) : Vector (Option Grant) 24 :=
  l.foldl (fun v x => wr v x.1 ((rd v x.1).map x.2)) v

/-- The record of a port that is not named is as it was. -/
theorem rd_updGrants_not (l : List (PortIx × (Grant → Grant))) (v) (p) (h : p ∉ l.map Prod.fst) : rd (updGrants v l) p = rd v p := by
  induction l generalizing v with
  | nil => rfl
  | cons a l ih =>
    simp only [List.map_cons, List.mem_cons, not_or] at h
    unfold updGrants at *
    rw [List.foldl_cons, ih _ h.2, rd_wr, if_neg h.1]

/-- The record of a port named once is changed by its function. -/
theorem rd_updGrants_mem (l : List (PortIx × (Grant → Grant))) (v) (x) (hl : (l.map Prod.fst).Nodup) (h : x ∈ l) :
    rd (updGrants v l) x.1 = (rd v x.1).map x.2 := by
  induction l generalizing v with
  | nil => cases h
  | cons a l ih =>
    rw [List.map_cons, List.nodup_cons] at hl
    rcases List.mem_cons.mp h with rfl | h
    · have := rd_updGrants_not l (wr v x.1 ((rd v x.1).map x.2)) x.1 hl.1
      unfold updGrants at *
      rw [List.foldl_cons, this]; simp
    · have := ih (wr v a.1 ((rd v a.1).map a.2)) hl.2 h
      unfold updGrants at *
      rw [List.foldl_cons, this, rd_wr, if_neg]
      rintro he
      exact hl.1 (he ▸ List.mem_map_of_mem h)

/-! ### The rescue of a group, step by step -/
/-- A grant with its retune record cleared. -/
def Grant.withoutRetune (m : Grant) : Grant := { m with retune := none }

/-- The SAME_LOOP retunes of grants on different ports abandoned one after another (05 R103). -/
theorem abandonSameLoop_fold (l : List Handle) (s : State) (hl : (l.map Handle.port).Nodup)
    (hm : ∀ h ∈ l, ∃ m : Grant, s.grantAt h.port = some m ∧ ∀ t f tol cut, m.retune ≠ some (.newLoop t f tol cut)) :
    l.foldl (fun s h => s.abandonSameLoop h.port) s =
      { s with engine := { s.engine with grants := updGrants s.engine.grants (l.map (fun h => (h.port, Grant.withoutRetune))) },
               notices := l.foldl (fun u h =>
                 if ((s.grantAt h.port).bind Grant.retune).isSome then u.raise h.port .retuneFailed else u) s.notices } := by
  induction l generalizing s with
  | nil => rfl
  | cons a l ih =>
    rw [List.map_cons, List.nodup_cons] at hl
    obtain ⟨m, h1, h2⟩ := hm a List.mem_cons_self
    have key : s.abandonSameLoop a.port = { s with
        engine := { s.engine with grants := wr s.engine.grants a.port ((rd s.engine.grants a.port).map Grant.withoutRetune) },
        notices := if ((s.grantAt a.port).bind Grant.retune).isSome then s.notices.raise a.port .retuneFailed else s.notices } := by
      unfold State.abandonSameLoop
      rw [h1]
      have h1' : rd s.engine.grants a.port = some m := h1
      cases hr : m.retune with
      | none =>
        simp [hr, h1', Grant.withoutRetune]
        have : wr s.engine.grants a.port (some { m with retune := none }) = s.engine.grants := by
          apply bank_ext; intro q; rw [rd_wr]; split
          · rename_i e; rw [e, h1', ← hr]
          · rfl
        rw [this]
      | some r =>
        cases r with
        | sameLoop d f tol => simp [hr, State.updGrant, State.setGrant, State.raise, State.grantAt, h1']; rfl
        | newLoop t f tol cut => exact absurd hr (h2 _ _ _ _)
    rw [List.foldl_cons, key, ih _ hl.2]
    · simp only [List.map_cons, List.foldl_cons, updGrants]
      congr 1
      apply List.foldl_ext
      intro u h hh
      have : h.port ≠ a.port := fun e => hl.1 (e ▸ List.mem_map_of_mem hh)
      simp [State.grantAt, this]
      try rfl
    · intro h hh
      obtain ⟨m', e1, e2⟩ := hm h (List.mem_cons_of_mem _ hh)
      refine ⟨m', ?_, e2⟩
      have : h.port ≠ a.port := fun e => hl.1 (e ▸ List.mem_map_of_mem hh)
      simpa [State.grantAt, rd_wr, this] using e1

/-- Binding lists after bindings have moved one after another from loop k to the tail of loop j (05 R104 step 1). -/
def movedLists (lists : Vector (List Binding) 6) (k j : LoopIx) (l : List (Handle × Nat)) : Vector (List Binding) 6 :=
  wr (wr lists k ((rd lists k).filter (fun x => !(l.map Prod.fst).contains x.handle))) j
    (rd lists j ++ l.map (fun m => { handle := m.1, d := m.2, role := .current }))

theorem movedLists_nil (lists : Vector (List Binding) 6) (k j : LoopIx) : movedLists lists k j [] = lists := by
  apply bank_ext
  intro q
  unfold movedLists
  simp only [rd_wr]
  split
  · subst_vars; simp
  · split
    · subst_vars; simp
    · rfl

theorem movedLists_cons (lists : Vector (List Binding) 6) (k j : LoopIx) (hkj : j ≠ k) (a : Handle × Nat) (l : List (Handle × Nat)) :
    movedLists (movedLists lists k j [a]) k j l = movedLists lists k j (a :: l) := by
  apply bank_ext
  intro q
  unfold movedLists
  simp only [rd_wr]
  by_cases e1 : q = j
  · simp [e1]
  · by_cases e2 : q = k
    · simp only [e2, if_true, if_neg (Ne.symm hkj), List.filter_filter]
      apply List.filter_congr
      intro x _
      by_cases h : x.handle = a.1 <;> simp [h]
    · simp [e1, e2]

theorem moveBinding_running (s : State) (k j : LoopIx) (i : EntryIx) (hkj : j ≠ k) (a : Handle × Nat) (hr : (s.loop j).state ≠ .idle) :
    s.moveBinding k j i a.1 a.2 = { s with engine := { s.engine with lists := movedLists s.engine.lists k j [a] } } := by
  unfold State.moveBinding
  rw [appendBinding_running _ _ _ _ (by simpa [State.loop] using hr)]
  simp [State.removeBinding, State.setList, State.list, hkj, movedLists]
  rfl

/-- The loop controller after a start of loop j, when it is IDLE. -/
def State.loopsStarted (s : State) (j : LoopIx) (i : EntryIx) : LoopController :=
  if (s.loop j).state = .idle then
    { s.loops with loops := wr s.loops.loops j (LoopRec.started s.loops.acquireLimit s.station.station i (planMode s.plan i)) }
  else s.loops

theorem moveBinding_idle (s : State) (k j : LoopIx) (i : EntryIx) (hkj : j ≠ k) (a : Handle × Nat) (hi : (s.loop j).state = .idle)
    (hf : (s.loop j).failed = none) :
    s.moveBinding k j i a.1 a.2 =
      { s with engine := { s.engine with lists := movedLists s.engine.lists k j [a] }, loops := s.loopsStarted j i } := by
  unfold State.moveBinding State.loopsStarted
  rw [appendBinding_idle _ _ _ _ (by simpa [State.loop] using hi) (by simpa [State.loop] using hf)]
  simp [State.removeBinding, State.setList, State.list, hkj, State.setLoop, movedLists, hi]
  rfl

/-- Bindings moved one after another to a running loop (05 R104 step 1). -/
theorem moveBinding_fold_running (k j : LoopIx) (i : EntryIx) (hkj : j ≠ k) (l : List (Handle × Nat)) (s : State)
    (hr : (s.loop j).state ≠ .idle) : l.foldl (fun s m => s.moveBinding k j i m.1 m.2) s =
      { s with engine := { s.engine with lists := movedLists s.engine.lists k j l } } := by
  induction l generalizing s with
  | nil => rw [movedLists_nil]; rfl
  | cons a l ih =>
    rw [List.foldl_cons, moveBinding_running s k j i hkj a hr]
    refine (ih _ ?_).trans ?_
    · exact hr
    · rw [movedLists_cons _ _ _ hkj]

/-- Bindings moved one after another to a loop, which the first of them starts when it is IDLE (05 R104 step 1). -/
theorem moveBinding_fold (k j : LoopIx) (i : EntryIx) (hkj : j ≠ k) (l : List (Handle × Nat)) (s : State) (hne : l ≠ [])
    (hr : (s.loop j).state = .idle → (s.loop j).failed = none) : l.foldl (fun s m => s.moveBinding k j i m.1 m.2) s =
      { s with engine := { s.engine with lists := movedLists s.engine.lists k j l }, loops := s.loopsStarted j i } := by
  by_cases hi : (s.loop j).state = .idle
  · cases l with
    | nil => exact absurd rfl hne
    | cons a l =>
      rw [List.foldl_cons, moveBinding_idle s k j i hkj a hi (hr hi)]
      refine (moveBinding_fold_running k j i hkj l _ ?_).trans ?_
      · simp only [State.loop, State.loopsStarted, State.loop] at hi ⊢
        simp only [hi, if_true, rd_wr]
        unfold LoopRec.started
        dsimp only
        split <;> simp
      · rw [movedLists_cons _ _ _ hkj]
  · rw [moveBinding_fold_running k j i hkj l s hi]
    simp [State.loopsStarted, hi]

/-- A grant moved by the rescue of its group (05 R104 step 2). -/
def Grant.movedTo (j : LoopIx) (i : EntryIx) (d : Nat) (m : Grant) : Grant :=
  { m with binding := some { loop := j, entry := i, d := d }, state := .pending }

/-- The grants of a group moved one after another (05 R104 step 2). -/
theorem moveGrant_fold (j : LoopIx) (i : EntryIx) (l : List (Handle × Nat)) (s : State) :
    l.foldl (fun s m => s.moveGrant j i m.1 m.2) s =
      { s with engine := { s.engine with grants := updGrants s.engine.grants (l.map (fun m => (m.1.port, Grant.movedTo j i m.2))) },
               notices := (l.map Prod.fst).foldl (fun u h => u.raise h.port .rescued) s.notices } := by
  induction l generalizing s with
  | nil => rfl
  | cons a l ih => rw [List.foldl_cons, ih]; rfl

/-- Ports requested by their grants' states one after another: only the port switch unit changes (05 R104 step 4). -/
theorem requestByState_fold (l : List Handle) (s : State) :
    l.foldl (fun s h => s.requestByState h.port) s =
      { s with switch := l.foldl (fun u h => match s.grantAt h.port with
            | some m => u.request s.loops.loops s.station.station h.port (s.portTarget m)
            | none => u) s.switch } := by
  induction l generalizing s with
  | nil => rfl
  | cons a l ih =>
    rw [List.foldl_cons, ih, List.foldl_cons]
    unfold State.requestByState
    cases h : s.grantAt a.port with
    | none => rfl
    | some m => rfl

/-! ### The search -/
/-- The search of 01 R9 for an arbitrary test, in its order. -/
theorem searchLoops_order {α : Type} (loops : Vector LoopRec 6) (ex : Option LoopIx) (test : EntryIx → Option α) :
    let sat : LoopIx → EntryIx → α → Prop := fun k i d => ex ≠ some k ∧ (rd loops k).run.map Run.entry = some i ∧ test i = some d
    let locked : LoopIx → Prop := fun k => (rd loops k).state = .locked
    let unlocked : LoopIx → Prop := fun k => (rd loops k).state = .acquiring ∨ (rd loops k).state = .tracking ∨ (rd loops k).state = .waiting
    let startable : LoopIx → Prop := fun k => ex ≠ some k ∧ (rd loops k).state = .idle ∧ (rd loops k).failed = none
    (∀ k i d, locked k → sat k i d → (∀ j < k, locked j → ∀ i d, ¬ sat j i d) → searchLoops loops ex test = some (k, i, d)) ∧
    ((∀ j, locked j → ∀ i d, ¬ sat j i d) →
      (∀ k i d, unlocked k → sat k i d → (∀ j < k, unlocked j → ∀ i d, ¬ sat j i d) → searchLoops loops ex test = some (k, i, d)) ∧
      ((∀ j, unlocked j → ∀ i d, ¬ sat j i d) →
        (∀ k i d, startable k → (∀ j < k, ¬ startable j) → test i = some d → (∀ j < i, test j = none) → searchLoops loops ex test = some (k, i, d)) ∧
        ((∀ k, ¬ startable k) ∨ (∀ i, test i = none) → searchLoops loops ex test = none))) := by
  dsimp only
  have shared : ∀ (P : LoopIx → Bool) (St : LoopIx → Prop), (∀ k, P k = true ↔ St k) →
     (∀ k i d, St k → (ex ≠ some k ∧ (rd loops k).run.map Run.entry = some i ∧ test i = some d) →
       (∀ j < k, St j → ∀ i d, ¬(ex ≠ some j ∧ (rd loops j).run.map Run.entry = some i ∧ test i = some d)) →
       allLoops.findSome? (fun k => if ex ≠ some k ∧ P k = true then ((rd loops k).tryEntry test).map (fun x => (k, x)) else none) = some (k, i, d)) ∧
     ((∀ j, St j → ∀ i d, ¬(ex ≠ some j ∧ (rd loops j).run.map Run.entry = some i ∧ test i = some d)) →
        allLoops.findSome? (fun k => if ex ≠ some k ∧ P k = true then ((rd loops k).tryEntry test).map (fun x => (k, x)) else none) = none) := by
    intro P St hP
    have none' : ∀ j, (St j → ∀ i d, ¬(ex ≠ some j ∧ (rd loops j).run.map Run.entry = some i ∧ test i = some d)) →
       (if ex ≠ some j ∧ P j = true then ((rd loops j).tryEntry test).map (fun x => (j, x)) else none) = none := by
      intro j h
      split
      · rename_i hc
        rw [tryEntry_none]; rfl
        intro i a hr ht
        exact h ((hP j).mp hc.2) i a ⟨hc.1, hr, ht⟩
      · rfl
    refine ⟨?_, ?_⟩
    · intro k i d hk hs hn
      refine findSome_least _ k _ ?_ ?_ _ allLoops_rising (mem_allLoops k)
      · rw [if_pos ⟨hs.1, (hP k).mpr hk⟩, tryEntry_some (rd loops k) test i d hs.2.1 hs.2.2]; rfl
      · intro j hj; exact none' j (hn j hj)
    · intro h; exact findSome_none _ _ (fun j => none' j (h j))
  have A := shared (fun k => (rd loops k).sharedLocked) (fun k => (rd loops k).state = .locked) (by intro k; simp [LoopRec.sharedLocked])
  have B := shared (fun k => (rd loops k).sharedUnlocked) (fun k => (rd loops k).state = .acquiring ∨ (rd loops k).state = .tracking ∨ (rd loops k).state = .waiting) (by intro k; simp [LoopRec.sharedUnlocked, or_assoc])
  have st : ∀ k, (ex != some k && (rd loops k).startable) = true ↔ (ex ≠ some k ∧ (rd loops k).state = .idle ∧ (rd loops k).failed = none) := by
    intro k; simp [LoopRec.startable]
  refine ⟨?_, fun h0 => ⟨?_, fun h1 => ⟨?_, ?_⟩⟩⟩
  · intro k i d a b c
    simp only [searchLoops, A.1 k i d a b c]
  · intro k i d a b c
    simp only [searchLoops, A.2 h0, B.1 k i d a b c]
  · intro k i d a b c e
    have : allLoops.find? (fun k => ex != some k && (rd loops k).startable) = some k :=
      find_least _ k ((st k).mpr a) (fun j hj => by have := b j hj; rw [← st j] at this; simpa using this) _ allLoops_rising (mem_allLoops k)
    have h3 : allEntries.findSome? (fun i => (test i).map (fun a => (k, i, a))) = some (k, i, d) :=
      findSome_least _ i _ (by simp [c]) (fun j hj => by simp [e j hj]) _ allEntries_rising (mem_allEntries i)
    simp only [searchLoops, A.2 h0, B.2 h1, this, h3]
  · intro h
    simp only [searchLoops, A.2 h0, B.2 h1]
    rcases h with h | h
    · have : allLoops.find? (fun k => ex != some k && (rd loops k).startable) = none := by
        rw [List.find?_eq_none]; intro k _ hk; exact h k ((st k).mp hk)
      rw [this]
    · split
      · rw [findSome_none]
        intro j; simp [h j]
      · rfl

/-- A test of every element of a list succeeds with the list of its results. -/
theorem mapM_eq_some {α β : Type} (f : α → Option β) (l : List α) (ds : List β) :
    l.mapM f = some ds ↔ ds.length = l.length ∧ ∀ (n : Nat) (a : α) (d : β), l[n]? = some a → ds[n]? = some d → f a = some d := by
  induction l generalizing ds with
  | nil => simp [eq_comm]
  | cons a l ih =>
    rw [List.mapM_cons]
    constructor
    · intro h
      cases ha : f a with
      | none => simp [ha] at h
      | some d =>
        cases hl : l.mapM f with
        | none => simp [ha, hl] at h
        | some es =>
          simp [ha, hl] at h
          subst h
          obtain ⟨h1, h2⟩ := (ih es).mp hl
          refine ⟨by simp [h1], ?_⟩
          intro n x y hx hy
          cases n with
          | zero => simp at hx hy; subst hx hy; exact ha
          | succ n => simp at hx hy; exact h2 n x y hx hy
    · rintro ⟨h1, h2⟩
      cases ds with
      | nil => simp at h1
      | cons d es =>
        have ha := h2 0 a d (by simp) (by simp)
        have hl := (ih es).mpr ⟨by simpa using h1, fun n x y hx hy => h2 (n+1) x y (by simpa using hx) (by simpa using hy)⟩
        simp [ha, hl]

/-! ### Strandings -/
/-- A grant stranded (05 R105). -/
def Grant.strandedRecord (m : Grant) : Grant := { m with binding := none, state := .stranded, retune := none, mark := false }

/-- A list without one handle, then without others. -/
theorem filter_members (l : List Binding) (a : Handle) (ms : List Handle) :
    (l.filter (fun x => x.handle != a)).filter (fun x => !ms.contains x.handle) =
      l.filter (fun x => !(a :: ms).contains x.handle) := by
  rw [List.filter_filter]; apply List.filter_congr; intro x _; by_cases h : x.handle = a <;> simp [h]

/-- Grants on different ports stranded one after another (05 R105). -/
theorem strand_fold (k : LoopIx) (l : List Handle) (s : State) (hl : (l.map Handle.port).Nodup)
    (hm : ∀ h ∈ l, ∃ m : Grant, s.resolve h = some m) :
    l.foldl (fun s h => s.strand k h.port) s =
      { s with engine := { s.engine with grants := updGrants s.engine.grants (l.map (fun h => (h.port, Grant.strandedRecord))),
                                         lists := wr s.engine.lists k ((s.list k).filter (fun x => !l.contains x.handle)) },
               notices := l.foldl (fun u h => u.raise h.port .stranded) s.notices,
               maint := { s.maint with attention := l.foldl (fun a _ => a.raise .grantStranded) s.maint.attention },
               switch := l.foldl (fun (u : SwitchUnit) (h : Handle) => match s.grantAt h.port with
            | some m => u.request s.loops.loops s.station.station h.port m.pendingSource
            | none => u) s.switch } := by
  induction l generalizing s with
  | nil =>
    have : wr s.engine.lists k ((s.list k).filter (fun x => !([] : List Handle).contains x.handle)) = s.engine.lists := by
      apply bank_ext; intro q
      simp only [rd_wr]
      split
      · subst_vars; simp [State.list]
      · rfl
    simp only [List.foldl_nil, List.map_nil, this]; rfl
  | cons a l ih =>
    rw [List.map_cons, List.nodup_cons] at hl
    obtain ⟨m, h1⟩ := hm a List.mem_cons_self
    obtain ⟨hg, hgen⟩ := resolve_some h1
    have hh : m.handle a.port = a := by cases a; simp [Grant.handle] at *; exact hgen
    have hg' : rd s.engine.grants a.port = some m := hg
    have key : s.strand k a.port = { s with
        engine := { s.engine with grants := wr s.engine.grants a.port ((rd s.engine.grants a.port).map Grant.strandedRecord), lists := wr s.engine.lists k ((s.list k).filter (fun x => x.handle != a)) },
        notices := s.notices.raise a.port .stranded, maint := { s.maint with attention := s.maint.attention.raise .grantStranded },
        switch := s.switch.request s.loops.loops s.station.station a.port m.pendingSource } := by
      unfold State.strand; simp only [hg, hh]
      simp [State.removeBinding, State.setList, State.updGrant, State.setGrant, State.grantAt, hg', State.raise, State.raiseCause, State.requestByState, State.requestSwitch, State.list, State.portTarget, State.tableTarget, Grant.pendingSource, Grant.strandedRecord]
    rw [List.foldl_cons, key]
    refine (ih _ hl.2 ?_).trans ?_
    · intro h hh'
      obtain ⟨m', e⟩ := hm h (List.mem_cons_of_mem _ hh')
      have : h.port ≠ a.port := fun e => hl.1 (e ▸ List.mem_map_of_mem hh')
      refine ⟨m', ?_⟩
      simpa [State.resolve, State.grantAt, rd_wr, this] using e
    · dsimp only [State.list, List.map_cons, List.foldl_cons, updGrants]
      have sw : ∀ u0 : SwitchUnit, l.foldl (fun (u : SwitchUnit) (h : Handle) => match State.grantAt { s with
        engine := { s.engine with grants := wr s.engine.grants a.port ((rd s.engine.grants a.port).map Grant.strandedRecord), lists := wr s.engine.lists k ((rd s.engine.lists k).filter (fun x => x.handle != a)) },
        notices := s.notices.raise a.port .stranded, maint := { s.maint with attention := s.maint.attention.raise .grantStranded },
        switch := s.switch.request s.loops.loops s.station.station a.port m.pendingSource } h.port with
            | some m => u.request s.loops.loops s.station.station h.port m.pendingSource
            | none => u) u0 = l.foldl (fun (u : SwitchUnit) (h : Handle) => match s.grantAt h.port with
            | some m => u.request s.loops.loops s.station.station h.port m.pendingSource
            | none => u) u0 := by
        intro u0
        apply List.foldl_ext
        intro u h hh'
        have : h.port ≠ a.port := fun e => hl.1 (e ▸ List.mem_map_of_mem hh')
        simp only [State.grantAt, rd_wr, this, if_false]
      rw [sw]
      have ls : wr (wr s.engine.lists k ((rd s.engine.lists k).filter (fun x => x.handle != a))) k
          ((rd (wr s.engine.lists k ((rd s.engine.lists k).filter (fun x => x.handle != a))) k).filter (fun x => !l.contains x.handle)) =
          wr s.engine.lists k ((rd s.engine.lists k).filter (fun x => !(a :: l).contains x.handle)) := by
        rw [wr_wr, rd_wr, if_pos rfl, filter_members]
      rw [ls]
      simp only [hg]
      rfl

/-- Grants that leave their group one after another (01 R19). -/
theorem leaveAll_fold (l : List Handle) (s : State) :
    l.foldl (fun s h => s.updGrant h.port (fun g => { g with group := none })) s =
      { s with engine := { s.engine with grants := updGrants s.engine.grants (l.map (fun h => (h.port, fun g => { g with group := none }))) } } := by
  induction l generalizing s with
  | nil => rfl
  | cons a l ih => rw [List.foldl_cons, ih]; rfl

/-- Two states with the same fields are the same. -/
theorem State.ext_fields (a b : State) (h1 : a.restart = b.restart) (h2 : a.present = b.present) (h3 : a.station = b.station) (h4 : a.plan = b.plan)
    (h5 : a.loops = b.loops) (h6 : a.switch = b.switch) (h7 : a.engine = b.engine) (h8 : a.notices = b.notices) (h9 : a.maint = b.maint)
    (h10 : a.links = b.links) (h11 : a.pending = b.pending) : a = b := by
  cases a; cases b; simp_all

end Sys2Proof.Machine
end

