-- ==== Sys2Proof/Laws/Station.lean ====
section
/-! SUPPORT. The attention latch, the reference monitors and the station selector: what each operation changes, and what it keeps sound (07 R127 to R135, 08 R149). -/

namespace Sys2Proof.Machine

variable {w : Bool}

/-! ### The attention latch (08 R149, R151) -/

/-- An attention latch that need not be filled yet: counts within 0..255, and the latched cause pending. -/
def Attention.Open (a : Attention) : Prop := (∀ i, rd a.counts i ≤ 255) ∧ ∀ c, a.latched = some c → a.pendingCause c = true

theorem Attention.Sound.open {a : Attention} (h : a.Sound) : a.Open := ⟨h.bounded, h.latchedPending⟩

theorem Attention.fillLatch_sound (a : Attention) (h : a.Open) : a.fillLatch.Sound := by
  unfold Attention.fillLatch
  cases e : a.latched with
  | some c => exact ⟨h.2, fun h' => absurd (e.symm.trans h') (by simp), h.1⟩
  | none =>
    refine ⟨fun c hc => List.find?_some hc, fun hn c => ?_, h.1⟩
    have := List.find?_eq_none.mp hn c (by cases c <;> simp [allCauses])
    show a.pendingCause c = false
    simpa using this

theorem Attention.raise_open {a : Attention} (h : a.Open) (c : Cause) : (a.raise c).Open := by
  refine ⟨?_, ?_⟩
  · intro i
    unfold Attention.raise
    by_cases hi : i = c.index
    · subst hi; simp
    · simp only [rd_upd_ne _ _ _ _ hi]; exact h.1 i
  · intro d hd
    have := h.2 d hd
    unfold Attention.raise Attention.pendingCause at *
    by_cases hi : d.index = c.index
    · simp [hi]
    · simpa only [rd_upd_ne _ _ _ _ hi] using this

theorem EnginePath.open {s t : State} (h : EnginePath w s t) (hs : s.maint.attention.Open) : t.maint.attention.Open := by
  have f := h.frame
  refine ⟨f.bounded hs.1, ?_⟩
  intro c hc
  rw [f.latched] at hc
  have := hs.2 c hc
  have hcnt := f.counts c.index
  unfold Attention.pendingCause at *
  simp at *
  omega

theorem Attention.acknowledge_sound (a : Attention) (c : Cause) (h : a.Sound) : (a.acknowledge c).Sound := by
  unfold Attention.acknowledge
  split
  · apply Attention.fillLatch_sound
    refine ⟨?_, ?_⟩
    · intro i
      by_cases hi : i = c.index
      · subst hi; simp
      · simp only [rd_wr_ne _ _ _ _ hi]; exact h.bounded i
    · intro d hd
      by_cases hc : a.latched = some c
      · simp [hc] at hd
      · simp only [if_neg hc] at hd
        have hdc : d ≠ c := by rintro rfl; exact hc hd
        have hi : d.index ≠ c.index := by cases d <;> cases c <;> simp_all [Cause.index]
        have := h.latchedPending d hd
        unfold Attention.pendingCause at *
        simpa only [rd_wr_ne _ _ _ _ hi] using this
  · exact h

/-! ### References -/

theorem RefRec.judgeAfresh_sound (r : RefRec) (ref : Ref) (rate : Nat) : (r.judgeAfresh ref rate).Sound ref := by
  unfold RefRec.judgeAfresh
  split
  · split
    · constructor <;> cases ref <;> simp
    · constructor <;> simp
  · constructor <;> simp

theorem RefRec.window_sound (r : RefRec) (ref : Ref) (period : QualPeriod) (e : WindowError) (hw : r.hasWindows = true) (hr : ref ≠ .xo)
    (h : r.Sound ref) : (r.window period e).Sound ref := by
  obtain ⟨h1, h2, h3⟩ := h
  obtain ⟨en, nom, pre, st, q, le⟩ := r
  cases st <;> simp [RefRec.hasWindows] at hw <;> unfold RefRec.window <;> (repeat' split) <;> constructor <;> simp_all <;> rfl

theorem StationBlock.ref_setRef (b : StationBlock) (r q : Ref) (x : RefRec) : (b.setRef r x).ref q = if q = r then x else b.ref q := by
  unfold StationBlock.setRef StationBlock.ref
  cases r <;> cases q <;> simp [refIx]

theorem StationBlock.judgeAll_ref (b : StationBlock) (rate : Nat) (r : Ref) : (b.judgeAll rate).ref r = (b.ref r).judgeAfresh r rate := by
  cases r <;> rfl

/-! ### The choice and the candidate (07 R133, R134) -/

theorem StationBlock.bestQualified_spec (b : StationBlock) (hp : ∀ r, r ∈ b.priority) :
    (∀ r, b.bestQualified = some r → b.qualified r = true) ∧ (b.bestQualified = none → ∀ r, b.qualified r = false) := by
  refine ⟨fun r h => List.find?_some h, fun h r => ?_⟩
  have := List.find?_eq_none.mp h r (hp r)
  simpa using this

theorem StationBlock.choice_spec (b : StationBlock) (hp : ∀ r, r ∈ b.priority) :
    (∀ r, b.choice = some r → b.qualified r = true) ∧ (b.choice = none → ∀ r, b.qualified r = false) := by
  unfold StationBlock.choice
  split
  · split
    · rename_i r hh hq
      exact ⟨fun r' h => by cases h; exact hq, fun h => by cases h⟩
    · exact b.bestQualified_spec hp
  · exact b.bestQualified_spec hp

/-- The candidate evaluated again makes a block sound when its station reference and its records are. -/
theorem StationBlock.evaluate_sound (b : StationBlock) (h1 : ∀ r, b.station = some r → b.qualified r = true)
    (h2 : b.station = none → ∀ r, b.qualified r = false) (h3 : ∀ r, (b.ref r).Sound r) (h4 : ∀ r, r ∈ b.priority) : b.evaluate.Sound where
  chosen := h1
  none := h2
  refs := h3
  priority := h4
  candidate := by
    show (b.evaluate.restore).map Restore.candidate = b.candidate
    unfold StationBlock.evaluate
    simp only
    cases hc : b.candidate with
    | none => rfl
    | some c =>
      cases hr : b.restore with
      | none => rfl
      | some r =>
        simp only
        split
        · rename_i h; simp [h]
        · rfl

/-! ### Changes taken by the selector -/

theorem changeStation_station (s : State) (new : Option Ref) : (s.changeStation new).station = { s.station with station := new } := by
  unfold State.changeStation stationChange
  cases h : s.station.station <;> cases new <;> simp
  · rw [← h]
  · simp [State.loopsAt]
  · simp [State.loopsAt]
  · split
    · rename_i hh
      split at hh
      · rename_i e; subst e; rw [← h]
      · cases hh
    · simp [State.loopsAt]

/-- What a change of the station reference leaves as it was. -/
theorem changeStation_frame (s : State) (new : Option Ref) :
    s.changeStation new =
      { s with station := (s.changeStation new).station, loops := (s.changeStation new).loops, switch := (s.changeStation new).switch,
               maint := { s.maint with attention := (s.changeStation new).maint.attention } } := by
  unfold State.changeStation
  split
  · rfl
  · rfl

theorem changeStation_open (s : State) (new : Option Ref) (h : s.maint.attention.Open) : (s.changeStation new).maint.attention.Open := by
  unfold State.changeStation
  split
  · exact h
  · exact Attention.raise_open h _

/-- The REFERENCE_QUALIFIED raises of a change at the monitors touch the attention latch alone, and leave it open. -/
theorem raiseEntered_frame (l : List Ref) (s : State) :
    let t := l.foldl (fun s _ => s.raiseCause .referenceQualified) s
    t = { s with maint := { s.maint with attention := t.maint.attention } } ∧
      (s.maint.attention.Open → t.maint.attention.Open) := by
  induction l generalizing s with
  | nil => exact ⟨rfl, id⟩
  | cons a l ih =>
    obtain ⟨h1, h2⟩ := ih (s.raiseCause .referenceQualified)
    exact ⟨h1, fun h => h2 (Attention.raise_open h _)⟩

theorem monitorsChange_station (s : State) (after : StationBlock) :
    (s.monitorsChange after).station = ({ after with station := after.choice } : StationBlock).evaluate := by
  unfold State.monitorsChange
  show ((State.changeStation _ _).station).evaluate = _
  rw [changeStation_station, (raiseEntered_frame _ _).1]

/-- What a change at the monitors leaves as it was. -/
theorem monitorsChange_frame (s : State) (after : StationBlock) :
    s.monitorsChange after =
      { s with station := (s.monitorsChange after).station, loops := (s.monitorsChange after).loops,
               switch := (s.monitorsChange after).switch,
               maint := { s.maint with attention := (s.monitorsChange after).maint.attention } } := by
  unfold State.monitorsChange
  dsimp only
  rw [changeStation_frame, (raiseEntered_frame _ _).1]
  rfl

theorem monitorsChange_latch (s : State) (after : StationBlock) (h : s.maint.attention.Sound) :
    (s.monitorsChange after).maint.attention.Sound :=
  Attention.fillLatch_sound _ (changeStation_open _ _ ((raiseEntered_frame _ _).2 h.open))

theorem monitorsChange_selector (s : State) (after : StationBlock) (h3 : ∀ r, (after.ref r).Sound r) (h4 : ∀ r, r ∈ after.priority) :
    (s.monitorsChange after).station.Sound := by
  rw [monitorsChange_station]
  have := after.choice_spec h4
  exact StationBlock.evaluate_sound _ this.1 this.2 h3 h4

/-- A change at the monitors that keeps the station reference for the selector to judge keeps the loop and port records sound. -/
theorem monitorsChange_records (s : State) (after : StationBlock) (hb : after.station = s.station.station) :
    (s.LoopsSound → (s.monitorsChange after).LoopsSound) ∧ (s.PortsSound → (s.monitorsChange after).PortsSound) := by
  obtain ⟨h1, -⟩ := raiseEntered_frame (s.station.entered after) { s with station := after }
  unfold State.monitorsChange
  dsimp only at h1 ⊢
  rw [h1]
  refine ⟨fun h => ?_, fun h => ?_⟩
  · have h0 : ({ s with station := after, maint := { s.maint with attention := ((s.station.entered after).foldl
        (fun (s : State) _ => s.raiseCause .referenceQualified) { s with station := after }).maint.attention } } : State).LoopsSound := by
      intro k
      show (s.loop k).Sound after.station
      rw [hb]
      exact h k
    exact changeStation_loopsSound _ after.choice h0
  · have h0 : ({ s with station := after, maint := { s.maint with attention := ((s.station.entered after).foldl
        (fun (s : State) _ => s.raiseCause .referenceQualified) { s with station := after }).maint.attention } } : State).PortsSound := by
      intro p
      show (rd s.switch.ports p).Sound s.loops.loops after.station
      rw [hb]
      exact h p
    exact changeStation_portsSound _ after.choice h0

end Sys2Proof.Machine
end

