-- ==== Sys2Proof/Tests/Slice0.lean ====
section
/-! SUPPORT. Tests: ill-formed operands, the manual's worked examples one step at a time, and for every statement with hypotheses a state and operands that meet them. -/

namespace Sys2Proof.Tests

open Sys2Proof.Machine

set_option Elab.async false

/-! ### Small states -/

/-- The state a command leaves. -/
def after (c : Instr) (s : State) : State :=
  match exec c s with
  | .next t => t
  | .fault _ => s
  | .refused _ => s

/-- The state an idle step leaves. -/
def idled (s : State) : State :=
  match step s with
  | .next t => t
  | .fault _ => s
  | .refused _ => s

/-- An AUTO plan entry judged at 1,000,000 Hz. -/
def entry (r n p e l : Nat) : PlanEntry :=
  planEntryOf { entry := 0, r := r, n := n, p := p, e := e, l := l, timed := false, settle := 0 } 1000000

/-- The plan of Table 2-3. -/
def plan : Vector (Option PlanEntry) 32 :=
  wr (wr (wr (wr (wr (wr (wr (fill 32 none) 0 (some (entry 1 125 0 2 31))) 1 (some (entry 1 100 0 2 25))) 2 (some (entry 3 250 1 1 83)))
    3 (some (entry 1 10 0 0 20))) 4 (some (entry 1 200 0 0 150))) 5 (some (entry 1 125 0 2 0))) 6 (some (entry 8 4001 0 2 125))

/-- A RUNNING card with every slot present and listening, and entries 0, 1 and 2 of Table 2-3. -/
def card : State :=
  { State.reset with
    present := fill 12 true, links := fill 12 { LinkRec.mute with listening := true },
    plan := wr (wr (wr (fill 32 none) 0 (some (entry 1 125 0 2 31))) 1 (some (entry 1 100 0 2 25))) 2 (some (entry 3 250 1 1 83)) }

/-- A loop in a state on an AUTO entry. -/
def loopOn (st : LoopState) (i : EntryIx) : LoopRec :=
  { state := st, failed := none, run := some { entry := i, mode := .auto },
    good := match st with
      | .locked => 4
      | .holdover => 4
      | _ => 0,
    lastError := none,
    timer := match st with
      | .locked => none
      | .holdover => none
      | _ => some { kind := .acquire, remaining := 250 } }

/-- A quarantined loop. -/
def failedLoop : LoopRec := { LoopRec.idle with failed := some .acquireTimeout }

/-- An ungrouped grant of generation 1, policy STOP, on a loop, an entry and a divider. -/
def grantOn (st : GrantState) (f tol : Nat) (k : LoopIx) (i : EntryIx) (d : Nat) : Grant :=
  { gen := 1, state := st, f := f, tol := tol, policy := .stop, fd := none, lease := none,
    binding := some { loop := k, entry := i, d := d }, group := none, retune := none, mark := false }

/-- The handle of generation 1 of a port. -/
def own (p : PortIx) : Handle := { port := p, gen := 1 }

/-- A CURRENT binding of generation 1. -/
def bound (p : PortIx) (d : Nat) : Binding := { handle := own p, d := d, role := .current }

/-- The line of a port set to a source, its count the first that began. -/
def setLine (s : State) (p : PortIx) (x : Source) : State :=
  { s with switch := { s.switch with ports := wr s.switch.ports p { current := x, switching := none, count := 0, origin := .begun 0 } } }

/-- A grant on a port, with its binding at the tail of its loop's list. -/
def place (s : State) (p : PortIx) (g : Grant) : State :=
  match g.binding with
  | some b => (s.setGrant p (some g)).setList b.loop (s.list b.loop ++ [bound p b.d])
  | none => s.setGrant p (some g)

/-- The hold flags set. -/
def held (s : State) (acks : Bool) : State := { s with maint := { s.maint with hold := true, allowAcks := acks } }

/-- A REQUEST for line A or B, policy STOP, permanent. -/
def ask (line : Line) (f tol : Nat) : RequestArgs :=
  { line := line, f := f, tol := tol, policy := .stop, fd := 0, lease := 0, align := none }

/-- The frame of the answer with which a link works. -/
def answered (s : State) (slot : SlotIx) : Option (List Byte) := (s.link slot).current.map Transmission.frame

/-! ### Ill-formed operands, one for each check of WellFormed -/

theorem test_illformed_request :
    (Instr.request 0 0 { ask .a 4294967296 1 with fd := 0 }).wellFormed = false ∧ (Instr.request 0 0 (ask .a 1 65536)).wellFormed = false ∧
    (Instr.request 0 0 { ask .a 1 1 with fd := 65536 }).wellFormed = false ∧
    (Instr.request 0 0 { ask .a 1 1 with lease := 65536 }).wellFormed = false := by decide +kernel

theorem test_illformed_retune :
    (Instr.retune 0 0 { handle := none, f := 4294967296, tol := 1, allowGap := false }).wellFormed = false ∧
    (Instr.retune 0 0 { handle := none, f := 1, tol := 65536, allowGap := false }).wellFormed = false := by decide +kernel

theorem test_illformed_renew : (Instr.renew 0 0 none 65536).wellFormed = false := by decide +kernel

theorem test_illformed_ack : (Instr.ack 0 0 .slot (.slot .restarted) 256).wellFormed = false := by decide +kernel

theorem test_illformed_slotReq :
    (SlotReq.request (ask .a 1 65536)).wellFormed = false ∧ (SlotReq.renew none 65536).wellFormed = false ∧
    (SlotReq.retune { handle := none, f := 1, tol := 65536, allowGap := false }).wellFormed = false ∧
    (SlotReq.ack .slot (.slot .restarted) 256).wellFormed = false := by decide +kernel

/-- A frame whose length byte cannot say its length, and a frame that is not malformed. -/
theorem test_illformed_linkError :
    (Instr.linkError 0 { head := 0, payload := List.replicate 256 0, check := 0 }).wellFormed = false ∧
    (Instr.linkError 0 (requestFrame 3 .notices)).wellFormed = false := by decide +kernel

theorem test_illformed_frameRefusedBusy :
    (Instr.frameRefusedBusy 0 { head := 0, payload := List.replicate 256 0, check := 0 }).wellFormed = false := by decide +kernel

theorem test_illformed_settings :
    (Instr.setStation 4294967296).wellFormed = false ∧ (Instr.setReference .refa 4294967296 true).wellFormed = false ∧
    (Instr.setPriority .xo .refa .refb .revertive 65536).wellFormed = false ∧ (Instr.setLimits 65536 1).wellFormed = false ∧
    (Instr.setLimits 10 65536).wellFormed = false := by decide +kernel

/-- The operands of a WRITE_PLAN of zeros. -/
def noPlan : PlanArgs := { entry := 0, r := 0, n := 0, p := 0, e := 0, l := 0, timed := false, settle := 0 }

theorem test_illformed_writePlan :
    (Instr.writePlan { noPlan with entry := 256 }).wellFormed = false ∧ (Instr.writePlan { noPlan with r := 256 }).wellFormed = false ∧
    (Instr.writePlan { noPlan with n := 65536 }).wellFormed = false ∧ (Instr.writePlan { noPlan with p := 256 }).wellFormed = false ∧
    (Instr.writePlan { noPlan with e := 256 }).wellFormed = false ∧ (Instr.writePlan { noPlan with l := 256 }).wellFormed = false ∧
    (Instr.writePlan { noPlan with settle := 65536 }).wellFormed = false := by decide +kernel

theorem test_illformed_numbers :
    (Instr.erasePlan 256).wellFormed = false ∧ (Instr.readPlan 256).wellFormed = false ∧ (Instr.readLoop 256).wellFormed = false ∧
    (Instr.readPort 256).wellFormed = false ∧ (Instr.readGrant (some 256)).wellFormed = false ∧ (Instr.readNotices 256).wellFormed = false ∧
    (Instr.clearLoop 256).wellFormed = false := by decide +kernel

/-- No bytes, and bytes that are a command. -/
theorem test_illformed_commandFormError :
    (Instr.commandFormError []).wellFormed = false ∧ (Instr.commandFormError [0x01#8, 0x00#8]).wellFormed = false := by decide +kernel

theorem test_illformed_reference :
    (Instr.referenceWindow .xo .noActivity).wellFormed = false ∧ (Instr.qualificationTimerExpiry .xo).wellFormed = false := by decide +kernel

/-! ### The wire (Table 9-1, Table 9-2, Table 10-3) -/

/-- REQUEST of line B, 25,000,000 Hz, 50 ppm, FALLBACK 80, 300 s, aligned with 3A/1, byte by byte (R160). -/
theorem test_request_bytes :
    parseRequest 2 [0x01#8, 0x01#8, 0x7D#8, 0x78#8, 0x40#8, 0x00#8, 0x32#8, 0x00#8, 0x00#8, 0x50#8, 0x01#8, 0x2C#8, 0x04#8, 0x01#8] =
      some (.request { line := .b, f := 25000000, tol := 50, policy := .fallback, fd := 80, lease := 300,
                       align := some { port := 4, gen := 1 } }) := by decide +kernel

/-- The head byte of tag 5 and NOTICES, and an answer head of tag 5 and BUSY. -/
theorem test_head_bytes : headByte 5 7 = 0xA7#8 ∧ (answerBytes 5 1 []).take 3 = [0xA5#8, 0xA1#8, 0x00#8] := by decide +kernel

/-- SET_PRIORITY REFA, REFB, XO, REVERTIVE, 10 s, byte by byte. -/
theorem test_command_bytes :
    parseCommand [0x12#8, 0x06#8, 0x01#8, 0x02#8, 0x00#8, 0x00#8, 0x00#8, 0x0A#8] = some (.setPriority .refa .refb .xo .revertive 10) ∧
    parseCommand [0x50#8, 0x02#8, 0x17#8, 0x0F#8] = some (.forceRetire (some { port := 23, gen := 15 })) ∧
    parseCommand [0x52#8, 0x02#8, 0x01#8, 0x00#8] = some (.holdOn false) := by decide +kernel

/-- A generation byte above 15 is undefined beside an absent port byte too (R157, R179); another one beside it names no grant. -/
theorem test_handle_bytes :
    parseHandle 0xFF#8 0x10#8 = none ∧ parseHandle 0xFF#8 0x0F#8 = some none ∧ parseHandle 0x18#8 0x00#8 = none ∧
    parseCommand [0x50#8, 0x02#8, 0xFF#8, 0x10#8] = none ∧ parseCommand [0x50#8, 0x02#8, 0xFF#8, 0x00#8] = some (.forceRetire none) := by
  decide +kernel

/-- No row of the table has bits. -/
theorem test_no_table_word : decodeTableWord 8 0 = none ∧ State.reset.withFetchWord 8 0 = State.reset := by
  exact ⟨rfl, rfl⟩

/-! ### Chapter 2: Table 2-3, Table 2-4 and section 2.6.1 -/

theorem test_table_2_3 : (plan.toList.take 7).map (Option.map PlanEntry.status) =
    [some .valid, some .valid, some .valid, some .outOfBand, some .outOfBand, some .disabled, some .valid] := by decide +kernel

/-- SET_STATION to 2,000,000 Hz judges the plan of Table 2-3 again (Table 2-4). -/
theorem test_table_2_4 :
    ((after (.setStation 2000000) { card with plan := plan }).plan.toList.take 8).map (Option.map PlanEntry.status) =
    [some .outOfBand, some .outOfBand, some .outOfBand, some .valid, some .outOfBand, some .disabled, some .outOfBand, none] := by
  decide +kernel

theorem test_match :
    matchEntry plan 1000000 0 25000000 50 = some 5 ∧ matchEntry plan 1000000 0 12500000 100 = some 10 ∧
    matchEntry plan 1000000 0 10000000 500 = none ∧ matchEntry plan 1000000 1 10000000 20 = some 10 ∧
    matchEntry plan 1000000 2 33333333 10 = some 5 ∧ matchEntry plan 1000000 6 250000000 500 = none := by decide +kernel

theorem test_search :
    findEntry plan 1000000 10000000 20 = some (1, 10) ∧ anyEntrySatisfies plan 1000000 250000000 500 = false := by decide +kernel

/-! ### Chapter 1, section 1.17 -/

/-- Step 1: 3A/1 PENDING on L0, entry 0, d 5; L0 ACQUIRING; the answer OK, 3A/1, PENDING. -/
theorem test_request_starts_loop :
    let t := after (.request 2 1 (ask .a 25000000 50)) card
    t.grantAt 4 = some (grantOn .pending 25000000 50 0 0 5) ∧ (t.loop 0).state = .acquiring ∧ t.list 0 = [bound 4 5] ∧
    answered t 2 = some (answerBytes 1 0 [0x04#8, 0x01#8, 0x00#8, 0x00#8, 0x00#8, 0x00#8, 0x00#8, 0x00#8]) := by decide +kernel

/-- The card after step 1. -/
def step1 : State := place (card.setLoop 0 (loopOn .acquiring 0)) 4 (grantOn .pending 25000000 50 0 0 5)

/-- Step 2: 5B/1 shares L0 with d 10, and port 5B completes at once onto FALLBACK(80), which no phase delays since the line is OFF. -/
theorem test_request_shares_loop :
    let t := after (.request 4 0 { ask .b 12500000 100 with policy := .fallback, fd := 80, lease := 300 }) step1
    t.list 0 = [bound 4 5, bound 9 10] ∧ (t.loop 0) = step1.loop 0 ∧
    (t.grantAt 9).bind Grant.lease = some { period := 300, remaining := 300000 } ∧
    (rd t.switch.ports 9).switching = some { target := .fallback 80, stasis := true, lost := false } := by decide +kernel

/-- Step 4: 8A/1 forms G1 with 3A/1, G 5; step 6: 20 MHz aligned with 3A/1 is answered NO_MATCH. -/
theorem test_request_aligned :
    let t := after (.request 7 0 { ask .a 25000000 50 with align := some (own 4) }) step1
    rd t.engine.groups 0 = some { loop := 0, g := 5, members := [own 4, own 14] } ∧
    rd t.switch.dividers 0 = some { loop := 0, value := 5, pendingValue := none, count := 0, stopped := false, origin := .begun 0 } ∧
    (t.grantAt 4).bind Grant.group = some 0 ∧
    answered (after (.request 8 0 { ask .a 20000000 100 with align := some (own 4) }) step1) 8 = some (answerBytes 0 4 []) := by
  decide +kernel

/-- L0 LOCKED on entry 0 with 5B/1 and 9B/1 (d 10, FALLBACK 80 and STOP), L1 LOCKED on entry 1 with 5A/1, all ACTIVE (Table 6-3). -/
def table63 : State :=
  let s := (card.setLoop 0 (loopOn .locked 0)).setLoop 1 (loopOn .locked 1)
  let s := place s 9 { grantOn .active 12500000 100 0 0 10 with policy := .fallback, fd := some 80 }
  let s := place s 17 (grantOn .active 12500000 100 0 0 10)
  let s := place s 8 { grantOn .active 10000000 20 1 1 10 with policy := .keep }
  setLine (setLine (setLine s 9 (.loop 0 10 none)) 17 (.loop 0 10 none)) 8 (.loop 1 10 none)

/-! ### Chapter 6, section 6.5 -/

/-- RETUNE's operands without a gap. -/
def retuneTo (p : PortIx) (f tol : Nat) : RetuneArgs := { handle := some (own p), f := f, tol := tol, allowGap := false }

/-- Retune 1: SAME_BINDING, the tolerance changed and RETUNED raised, the port untouched. -/
theorem test_retune_same_binding :
    let t := after (.retune 4 0 (retuneTo 9 12500000 50)) table63
    (t.grantAt 9).map Grant.tol = some 50 ∧ rd (rd t.notices.ports 9).kinds 6 = { pending := true, seq := 1 } ∧ t.switch = table63.switch ∧
    answered t 4 = some (answerBytes 0 0 [0x09#8, 0x01#8, 0x01#8, 0x00#8, 0x00#8, 0xFF#8, 0xFF#8, 0xFF#8]) := by decide +kernel

/-- Retune 2: SAME_LOOP in flight. Retune 3: NEW_LOOP onto L0 with d 3, its cut-over begun at once. -/
theorem test_retune_in_flight :
    ((after (.retune 8 0 (retuneTo 17 25000000 50)) table63).grantAt 17).bind Grant.retune = some (.sameLoop 5 25000000 50) ∧
    ((after (.retune 4 0 (retuneTo 8 41666667 20)) table63).grantAt 8).bind Grant.retune =
      some (.newLoop { loop := 0, entry := 0, d := 3 } 41666667 20 .inFlight) := by decide +kernel

/-- Retune 5: the gap allowed and no other loop to be had, L1 restarts on entry 2 and 5B/1 is PENDING with its mark set. -/
theorem test_retune_restart :
    let s := ((((card.setLoop 2 failedLoop).setLoop 3 failedLoop).setLoop 4 failedLoop).setLoop 5 failedLoop).setLoop 0 failedLoop
    let s := place (s.setLoop 1 (loopOn .locked 1)) 9 { grantOn .active 10000000 20 1 1 10 with policy := .fallback, fd := some 80 }
    let t := after (.retune 4 0 { retuneTo 9 23809524 20 with allowGap := true }) s
    (t.loop 1).run = some { entry := 2, mode := .auto } ∧ (t.loop 1).state = .acquiring ∧
    (t.grantAt 9).map (fun g => (g.state, g.binding, g.mark)) = some (.pending, some { loop := 1, entry := 2, d := 7 }, true) := by
  decide +kernel

/-! ### Chapter 12 -/

/-- Table 12-2: L0 LOCKED with 2A/1 FALLBACK 40 and 4B/1 STOP; a window of +80 ppm raises lock lost, into TRACKING with a full acquire timer. -/
def table122 : State :=
  let s := place (card.setLoop 0 (loopOn .locked 0)) 2 { grantOn .active 25000000 50 0 0 5 with policy := .fallback, fd := some 40 }
  place s 7 (grantOn .active 12500000 100 0 0 10)

theorem test_loopWindow_loses_lock :
    (after (.loopWindow 0 (.ppm 80)) table122).loop 0 =
      { loopOn .tracking 0 with lastError := some (.ppm 80), timer := some { kind := .acquire, remaining := 250 } } ∧
    rd (after (.loopWindow 0 (.ppm 80)) table122).loops.events 0 = [{ kind := .lost, state := .tracking }] ∧
    after (.loopWindow 0 (.ppm (-60))) table122 = table122.setLoop 0 { loopOn .locked 0 with lastError := some (.ppm (-60)) } := by
  decide +kernel

/-- Lock lost taken: both grants DEGRADED with their notices. -/
theorem test_lockLost_degrades :
    let s := { table122 with loops := { table122.loops with events := wr table122.loops.events 0 [{ kind := .lost, state := .tracking }] } }
    let t := after (.lockLost 0) s
    (t.grantAt 2).map Grant.state = some .degraded ∧ (t.grantAt 7).map Grant.state = some .degraded ∧
    rd (rd t.notices.ports 2).kinds 1 = { pending := true, seq := 1 } ∧ rd (rd t.notices.ports 7).kinds 1 = { pending := true, seq := 1 } ∧
    rd t.loops.events 0 = [] := by decide +kernel

/-- Table 12-4 before the failure: L3 LOCKED on entry 0 with 6A/1; L0 TRACKING with G1 (3A/1, 8A/1) and 5B/1; the other loops quarantined. -/
def table124 : State :=
  let s := (((card.setLoop 1 failedLoop).setLoop 2 failedLoop).setLoop 4 failedLoop).setLoop 5 failedLoop
  let s := (s.setLoop 3 (loopOn .locked 0)).setLoop 0 { loopOn .tracking 0 with timer := some { kind := .acquire, remaining := 0 } }
  let s := place s 10 (grantOn .active 25000000 50 3 0 5)
  let s := place s 4 { grantOn .degraded 25000000 50 0 0 5 with group := some 0 }
  let s := place s 9 { grantOn .degraded 12500000 100 0 0 10 with policy := .fallback, fd := some 80 }
  let s := place s 14 { grantOn .degraded 12500000 100 0 0 10 with group := some 0 }
  let s := s.setGroup 0 (some { loop := 0, g := 10, members := [own 4, own 14] })
  { s with switch := { s.switch with
      dividers := wr s.switch.dividers 0 (some { loop := 0, value := 10, pendingValue := none, count := 0, stopped := false, origin := .begun 0 }) } }

theorem test_acquireTimeout_rescues :
    let t := after (.acquireTimeout 0) table124
    t.list 3 = [bound 10 5, bound 4 5, bound 14 10, bound 9 10] ∧ t.list 0 = [] ∧
    t.loop 0 = failedLoop ∧ rd t.engine.groups 0 = some { loop := 3, g := 10, members := [own 4, own 14] } ∧
    (t.grantAt 4).map Grant.state = some .pending ∧ (t.grantAt 14).map Grant.state = some .pending ∧
    rd (rd t.notices.ports 9).kinds 4 = { pending := true, seq := 1 } ∧
    t.maint.attention.latched = some .loopFailed ∧ rd t.maint.attention.counts 2 = 0 := by decide +kernel

/-- Table 12-4, the closing remark: no loop serves, so the group and 5B/1 are stranded and GRANT_STRANDED is raised three times. -/
theorem test_acquireTimeout_strands :
    let s := table124.setLoop 3 (loopOn .locked 2)
    let t := after (.acquireTimeout 0) s
    (t.grantAt 4).map (fun g => (g.state, g.binding, g.group)) = some (.stranded, none, none) ∧
    (t.grantAt 14).map Grant.state = some .stranded ∧ rd t.engine.groups 0 = none ∧
    rd t.maint.attention.counts 2 = 3 ∧ t.maint.attention.latched = some .loopFailed := by decide +kernel

/-- Table 12-5: 9B/1 leased for 5 s. RENEW restarts it; the expiry retires it with RETIRED and its reason. -/
def table125 : State := place (card.setLoop 0 (loopOn .locked 0)) 17
  { grantOn .active 12500000 100 0 0 10 with lease := some { period := 5, remaining := 0 } }

theorem test_renew_and_expiry :
    answered (after (.renew 8 2 (some (own 17)) 0) table125) 8 =
      some (answerBytes 2 0 [0x00#8, 0x05#8, 0x00#8, 0x00#8, 0x13#8, 0x88#8]) ∧
    (let t := after (.leaseExpiry 17) table125
     t.grantAt 17 = none ∧ (rd t.notices.ports 17).retired = some { reason := .leaseExpired, gen := 1 } ∧ t.attn 8 = true ∧
     (t.loop 0).state = .idle ∧ answered (after (.renew 8 2 (some (own 17)) 0) t) 8 = some (answerBytes 2 2 [])) := by
  decide +kernel

/-- Table 12-6 at 0 ms: REFA alone is the station reference, L3 LOCKED with 6A/1 and L2 ACQUIRING with 180 ms left. -/
def table126 : State :=
  let off : RefRec := { enabled := false, nominal := 40000000, preDivider := none, state := .disabled, qualTimer := none, lastError := none }
  let refa : RefRec := { enabled := true, nominal := 10000000, preDivider := some 10, state := .qualified, qualTimer := none, lastError := none }
  let s := (card.setLoop 3 (loopOn .locked 0)).setLoop 2 { loopOn .acquiring 0 with timer := some { kind := .acquire, remaining := 180 } }
  { s with station := { s.station with refs := #v[off, refa, { off with nominal := 10000000 }], station := some .refa } }

theorem test_referenceWindow_loses_station :
    let t := after (.referenceWindow .refa .noActivity) table126
    t.station.station = none ∧
    t.loop 3 = { loopOn .holdover 0 with timer := some { kind := .holdover, remaining := 60000 } } ∧
    t.loop 2 = { loopOn .waiting 0 with timer := some { kind := .acquire, remaining := 180 } } ∧
    rd t.loops.events 3 = [{ kind := .holdoverEntered, state := .holdover }] ∧
    t.maint.attention.latched = some .stationNone ∧ t.alert = true := by decide +kernel

/-- Table 12-6 at 6,000 ms: the qualification ends, the loops return and two causes are counted behind the latched one. -/
theorem test_qualification_returns_station :
    let lost := after (.referenceWindow .refa .noActivity) table126
    let refa : RefRec := { lost.station.ref .refa with state := .qualifying, qualTimer := some 0, lastError := some (.ppm 4) }
    let s := { lost with station := lost.station.setRef .refa refa }
    let t := after (.qualificationTimerExpiry .refa) s
    t.station.station = some .refa ∧ t.loop 3 = { loopOn .holdover 0 with timer := none } ∧
    t.loop 2 = { loopOn .acquiring 0 with timer := some { kind := .acquire, remaining := 180 } } ∧
    t.maint.attention.latched = some .stationNone ∧ rd t.maint.attention.counts 3 = 1 ∧ rd t.maint.attention.counts 4 = 1 := by
  decide +kernel


/-! ### Chapters 3, 5, 7, 8, 9 and 11 -/

/-- Table 3-6, times 2, 5 and 9. -/
theorem test_loopWindow_table_3_6 :
    (after (.loopWindow 0 (.ppm 280)) (card.setLoop 0 (loopOn .acquiring 0))).loop 0 = { loopOn .tracking 0 with lastError := some (.ppm 280) } ∧
    ((after (.loopWindow 0 (.ppm 35)) (card.setLoop 0 { loopOn .tracking 0 with good := 2 })).loop 0).good = 0 ∧
    (let t := after (.loopWindow 0 (.ppm 2)) (card.setLoop 0 { loopOn .tracking 0 with good := 3 })
     t.loop 0 = { loopOn .locked 0 with lastError := some (.ppm 2) } ∧ rd t.loops.events 0 = [{ kind := .gained, state := .locked }]) := by
  decide +kernel

/-- A grant of line 10B/1 of Table 5-5, with its NEW_LOOP retune onto L2. -/
def grant10B : Grant :=
  { grantOn .degraded 10000000 100 1 1 10 with
    policy := .fallback, fd := some 100, retune := some (.newLoop { loop := 2, entry := 2, d := 7 } 23809524 20 .awaitingLock) }

/-- Tables 5-4 and 5-5, 6B/2 and 3A/2 with generation 1. -/
def table55 : State :=
  let s := (card.setLoop 0 (loopOn .locked 0)).setLoop 1 { loopOn .tracking 1 with timer := some { kind := .acquire, remaining := 0 } }
  let s := (((s.setLoop 2 (loopOn .acquiring 2)).setLoop 3 (loopOn .locked 0)).setLoop 4 failedLoop).setLoop 5 failedLoop
  let s := place s 4 (grantOn .active 25000000 50 3 0 5)
  let s := place s 6 { grantOn .degraded 10000000 20 1 1 10 with policy := .keep }
  let s := place s 11
    { grantOn .active 25000000 50 0 0 5 with retune := some (.newLoop { loop := 1, entry := 1, d := 5 } 20000000 50 .awaitingLock) }
  let s := s.setList 1 (s.list 1 ++ [{ bound 11 5 with role := .retuneTarget }])
  let s := place (place s 12 (grantOn .degraded 25000000 50 1 1 4)) 19 grant10B
  let s := s.setList 2 [{ bound 19 7 with role := .retuneTarget }]
  let s := place s 20 { grantOn .degraded 20000000 50 1 1 5 with group := some 0 }
  let s := place s 22 { grantOn .degraded 10000000 50 1 1 10 with group := some 0 }
  let s := s.setGroup 0 (some { loop := 1, g := 10, members := [own 20, own 22] })
  setLine (setLine s 11 (.loop 0 5 none)) 19 (.fallback 100)

/-- Table 5-6, with the attention latch of its last paragraph. -/
theorem test_acquireTimeout_table_5_6 :
    let t := after (.acquireTimeout 1) table55
    [6, 11, 12, 19, 20, 22].map (fun p => (t.grantAt p).map (fun g => (g.state, g.binding))) =
      [some (.stranded, none), some (.active, some { loop := 0, entry := 0, d := 5 }), some (.pending, some { loop := 0, entry := 0, d := 5 }),
       some (.pending, some { loop := 2, entry := 2, d := 7 }), some (.stranded, none), some (.stranded, none)] ∧
    (t.grantAt 19).map Grant.mark = some true ∧ t.list 0 = [bound 11 5, bound 12 5] ∧ t.list 1 = [] ∧ t.list 2 = [bound 19 7] ∧
    (rd t.switch.ports 12).switching.map Switching.target = some (.loop 0 5 none) ∧ rd t.switch.ports 19 = rd table55.switch.ports 19 ∧
    rd (rd t.notices.ports 11).kinds 7 = { pending := true, seq := 1 } ∧ rd (rd t.notices.ports 12).kinds 4 = { pending := true, seq := 1 } ∧
    (rd t.notices.ports 19).kinds = fill 9 Notice.clear ∧ rd t.maint.attention.counts Cause.grantStranded.index = 3 ∧
    t.loop 1 = failedLoop := by decide +kernel

/-- Table 7-6 at 4,100 ms: REFA leaves QUALIFIED, the candidate becomes REFB and its timer starts at the full delay. -/
def table76 : State :=
  let good : RefRec := { enabled := true, nominal := 10000000, preDivider := some 10, state := .qualified, qualTimer := none, lastError := none }
  { card with station := { card.station with
      period := .short, refs := #v[card.station.ref .xo, good, good], mode := .revertive,
      restore := some { candidate := .refa, remaining := 7000 } } }

theorem test_table_7_6 :
    (after (.referenceWindow .refa (.ppm (-130))) table76).station.restore = some { candidate := .refb, remaining := 10000 } ∧
    ((after (.referenceWindow .refa (.ppm (-130))) table76).station.ref .refa).state = .outOfRange ∧
    (let s := { table76 with station := { table76.station with restore := some { candidate := .refa, remaining := 0 } } }
     let t := after .restoreTimerExpiry s
     t.station.station = some .refa ∧ t.station.restore = none ∧ t.maint.attention.latched = some .stationSwitched) := by decide +kernel

/-- Table 8-4: the last four acknowledgements. -/
theorem test_table_8_4 :
    let a : Attention := { counts := #v[1, 0, 0, 1, 1], latched := some .stationNone }
    (a.acknowledge .stationNone).latched = some .stationSwitched ∧
    ((a.acknowledge .stationNone).acknowledge .referenceQualified) = { counts := #v[0, 0, 0, 1, 0], latched := some .stationSwitched } ∧
    (((a.acknowledge .stationNone).acknowledge .referenceQualified).acknowledge .stationSwitched).latched = none := by decide +kernel

/-- A card whose link of S5 is WORKING, with a BUSY tag held. -/
def table96 : State :=
  card.updLink 4 (fun l => { l with current := some { frame := answerBytes 2 0 [], sent := 0 }, busyTag := some 3 })

/-- Table 9-6: the tag of a later frame replaces the one held, and the end of the answer sends it. -/
theorem test_table_9_6 :
    ((after (.frameRefusedBusy 4 (requestFrame 4 .notices)) table96).link 4).busyTag = some 4 ∧
    ((after (.notices 4 4) table96).link 4).busyTag = some 4 ∧
    (after (.answerSent 4) (after (.notices 4 4) table96)).link 4 = { card.link 4 with busyTx := some { frame := answerBytes 4 1 [], sent := 0 } } ∧
    (after (.frameGapTimeout 4) (card.updLink 4 (fun l => { l with receiver := .receiving [0xA5#8] }))).link 4 = card.link 4 := by
  decide +kernel

/-- A card in SETTLING whose settle timer has run out, S2 and S7 fitted, with the chassis request held or not (Table 11-4). -/
def settled (chassis : Bool) : State :=
  let s := after (.supplyApplied { address := 0, continuity := false, qualification := .short })
    { State.reset with present := wr (wr (fill 12 false) 1 true) 6 true }
  { s with restart := { s.restart with settleTimer := some 0, causes := { power := true, panel := true, chassis := chassis }, chassisHeld := chassis } }

/-- Table 11-4 at 8 ms and at 20 ms. -/
theorem test_table_11_4 :
    let waits := after .xoSettleExpiry (settled true)
    waits.restart.startUp = .restarting ∧ waits.restart.restartTimer = some 2 ∧
    (let t := after .chassisResetRelease { waits with restart := { waits.restart with restartTimer := none } }
     t.restart.startUp = .running ∧ t.restart.causes = { power := true, panel := true, chassis := true } ∧ t.station.station = some .xo ∧
     (rd t.notices.slots 6).restarted = { pending := true, seq := 1 } ∧ (t.link 6).listening = true ∧ (t.link 0).listening = false) := by
  decide +kernel

/-! ### Witnesses: states and operands that meet the hypotheses of each statement -/

/-- A card in a start-up state with its timers. -/
def startUpCard (st : StartUp) (settle restart : Option Nat) (panel chassis : Bool) : State :=
  let s := State.reset.blank
  { s with restart := { s.restart with startUp := st, settleTimer := settle, restartTimer := restart, panelHeld := panel, chassisHeld := chassis } }

/-- Every timer of the card at 1 ms, but for those of start-up. -/
def timersOut : State :=
  let s := card.setLoop 0 { loopOn .acquiring 0 with timer := some { kind := .acquire, remaining := 1 } }
  let s := s.setLoop 1 { loopOn .acquiring 1 with run := some { entry := 1, mode := .timed 1 }, timer := some { kind := .settle, remaining := 1 } }
  let s := s.setLoop 2 { loopOn .holdover 2 with timer := some { kind := .holdover, remaining := 1 } }
  let s := s.setLoop 3 (loopOn .waiting 0)
  let s := place s 4 { grantOn .pending 25000000 50 0 0 5 with lease := some { period := 1, remaining := 1 } }
  { s with station := { s.station with restore := some { candidate := .refa, remaining := 1 } } }

theorem witness_IdleStepCountsTimers :
    timersOut.pending = [] ∧ timersOut.restart.startUp = .running ∧ timersOut.maint.hold = false ∧ (held timersOut true).pending = [] ∧
    (held timersOut true).maint.hold = true ∧ (startUpCard .settling (some 8) none false false).restart.startUp ≠ .running := by decide +kernel

/-- A frame in reception does not outlast an idle millisecond (R156), and a BUSY answer goes before the current one (R158). -/
theorem witness_IdleStepCountsTimers_links :
    (let s := card.updLink 0 (fun l => { l with receiver := .receiving [0x00#8] })
     s.pending = [] ∧ (idled s).link 0 = card.link 0 ∧ (idled (held s true)).link 0 = card.link 0) ∧
    (let s := card.updLink 0 (fun l => { l with current := some { frame := List.replicate 130 0, sent := 90 }, busyTx := some { frame := [0, 0], sent := 0 } })
     ((idled s).link 0).current = some { frame := List.replicate 130 0, sent := 90 } ∧
     ((idled s).link 0).busyTx = some { frame := [0, 0], sent := 2 }) ∧
    (let s := card.updLink 0 (fun l => { l with current := some { frame := List.replicate 130 0, sent := 29 } })
     ((idled s).link 0).current = some { frame := List.replicate 130 0, sent := 129 }) := by decide +kernel

theorem witness_ExpiriesFallDueAtZero :
    (idled timersOut).pending =
      [.acquireTimeout 0, .settleTimerExpiry 1, .holdoverExpired 2, .leaseExpiry 4, .restoreTimerExpiry] ∧
    (idled (held timersOut false)).pending = [] ∧
    (idled (startUpCard .settling (some 1) none false false)).pending = [.xoSettleExpiry] ∧
    (idled (startUpCard .restarting none (some 1) false false)).pending = [.restartTimerExpiry] ∧
    (idled (startUpCard .restarting none none true false)).pending = [] := by decide +kernel

/-- REFA and REFB in QUALIFYING with 1 ms left; no expiry falls due at 2 ms or under hold. -/
theorem witness_ExpiriesFallDueAtZero_qualification :
    (let q : Nat → State := fun n =>
       let put : Ref → StationBlock → StationBlock := fun r b => b.setRef r { b.ref r with state := .qualifying, qualTimer := some n }
       { card with station := put .refa (put .refb card.station) }
     (idled (q 1)).pending = [.qualificationTimerExpiry .refa, .qualificationTimerExpiry .refb] ∧ (idled (q 2)).pending = [] ∧
     (idled (held (q 1) false)).pending = []) := by decide +kernel

/-- The largest numbers every field carries. -/
theorem witness_SlotRequestEncodingAgrees :
    [SlotReq.hello true, .request { line := .b, f := 4294967295, tol := 65535, policy := .keep, fd := 65535, lease := 65535, align := none },
     .retune { handle := some { port := 23, gen := 15 }, f := 4294967295, tol := 65535, allowGap := true }, .release none,
     .renew (some (own 0)) 65535, .query none, .notices, .ack .lineB (.port .retired) 255].all SlotReq.wellFormed = true := by decide +kernel

theorem witness_MaintenanceCommandEncodingAgrees :
    [Instr.setStation 4294967295, .setLimits 65535 0, .readGrant none, .readPlan 255, .ackAttention .referenceQualified,
     .writePlan { entry := 255, r := 255, n := 65535, p := 255, e := 255, l := 255, timed := true, settle := 65535 }].all
      (fun c => c.wellFormed && (commandBytes c).isSome) = true := by decide +kernel

theorem witness_FrameReceivedByteByByte :
    (SlotReq.query none).wellFormed = true ∧ (card.link 11).listening = true ∧ (card.link 11).receiver = .hunting := by decide +kernel

/-- A card whose link of S1 receives a frame. -/
def receivingCard (got : List Byte) : State := card.updLink 0 (fun l => { l with receiver := .receiving got })

theorem witness_ReceiverBytes :
    (State.reset.link 0).listening = false ∧ (card.link 0).listening = true ∧ (card.link 0).receiver = .hunting ∧
    ((receivingCard []).link 0).listening = true ∧ ((receivingCard []).link 0).receiver = .receiving [] ∧
    frameOf ([] ++ [0xA5#8]) = none ∧ (0xA4#8 : Byte) ≠ 0xA5#8 := by decide +kernel

/-- A frame whose check byte does not match, and one of an undefined kind whose check byte does. -/
def badCheck : RawFrame := { requestFrame 3 .notices with check := crc8 [0x00#8] }
def badKind : RawFrame := { head := headByte 3 31, payload := [], check := crc8 [headByte 3 31, 0x00#8] }

theorem witness_slotLinks :
    card.linkReady 2 ∧ table96.linkWorking 4 ∧ State.reset.canReceive 2 (requestFrame 1 .notices) = false ∧
    card.canReceive 2 (requestFrame 1 .notices) = true ∧ badCheck.checkOk = false ∧ badKind.checkOk = true ∧
    parseRequest (headKind badKind.head) badKind.payload = none := by
  unfold State.linkReady State.linkWorking
  decide +kernel

/-- The check byte of a good frame, of one whose check byte does not match and of one of an undefined kind completes it, at an IDLE link and at a
WORKING one. -/
theorem witness_ReceiverBytes_completed :
    [requestFrame 3 .notices, badCheck, badKind].all (fun f =>
      frameOf (f.tail.dropLast ++ [f.check]) = some f && ((receivingCard f.tail.dropLast).link 0).receiver = .receiving f.tail.dropLast &&
        ((receivingCard f.tail.dropLast).link 0).listening) = true ∧
    (card.link 0).current = none ∧ (table96.link 4).current.isSome = true ∧
    parseRequest (headKind (requestFrame 3 .notices).head) [] = some .notices ∧
    answered (after (.requestByteReceived 0 badCheck.check false) (receivingCard badCheck.tail.dropLast)) 0 = some (answerBytes 3 0x0C []) ∧
    answered (after (.requestByteReceived 0 badKind.check false) (receivingCard badKind.tail.dropLast)) 0 = some (answerBytes 3 0x0A []) := by
  decide +kernel

/-- Kinds and lengths that Table 9-4 does not give, and each enumerated field at the last code of its enumeration and one past it. -/
theorem witness_MalformedFrameAnswered :
    [(0, 0), (9, 0), (31, 0), (1, 0), (1, 2), (2, 13), (3, 10), (4, 1), (5, 3), (6, 2), (7, 1), (8, 4)].all (fun x =>
      (parseRequest x.1 (List.replicate x.2 0x00#8)).isNone) = true ∧
    [[0x01#8], [0x02#8]].map (fun x => (parseRequest 1 x).isSome) = [true, false] ∧
    [[0x17#8, 0x0F#8], [0xFF#8, 0x0F#8], [0x18#8, 0x00#8], [0xFE#8, 0x00#8], [0xFF#8, 0x10#8], [0x00#8, 0x10#8]].map (fun x =>
      (parseRequest 4 x).isSome) = [true, true, false, false, false, false] ∧
    [[0x02#8, 0x0A#8, 0xFF#8], [0x03#8, 0x0A#8, 0xFF#8], [0x02#8, 0x0B#8, 0xFF#8]].map (fun x => (parseRequest 8 x).isSome) =
      [true, false, false] ∧
    [(0x01#8, 0x02#8), (0x02#8, 0x02#8), (0x01#8, 0x03#8)].map (fun x =>
      (parseRequest 2 ([x.1] ++ List.replicate 6 0x00#8 ++ [x.2] ++ List.replicate 6 0x00#8)).isSome) = [true, false, false] ∧
    [0x01#8, 0x02#8].map (fun gap => (parseRequest 3 (List.replicate 8 0x00#8 ++ [gap])).isSome) = [true, false] ∧
    [0x01#8, 0x02#8].map (fun line => (parseRequest 6 [line]).isSome) = [true, false] := by decide +kernel

theorem witness_WorkingLinkRefusesAndIsFreed :
    (requestFrame 4 .notices).checkOk = true ∧ (table96.link 4).current.isSome = true ∧ (table96.link 4).busyTx = none ∧
    (table96.link 4).busyTag = some 3 ∧
    (let u := table96.updLink 4 (fun l => { l with busyTag := none, busyTx := some { frame := [], sent := 0 } })
     (u.link 4).busyTag = none ∧ (u.link 4).busyTx ≠ none ∧ (u.link 4).current.isSome = true) ∧ (card.link 4).current = none := by
  decide +kernel

theorem witness_PresentLineAndSlotLoss :
    State.reset.restart.startUp = .running ∧ rd State.reset.present 0 = false ∧ rd card.present 0 = true ∧
    (startUpCard .supplyHeld none none false false).restart.startUp ≠ .running := by decide +kernel

/-! ### Witnesses: grants -/

/-- The card with every loop but L0 quarantined and L0 in the state given on entry 0. -/
def onlyL0 (st : LoopState) : State :=
  { card with loops := { card.loops with loops := wr (fill 6 failedLoop) 0 (if st = .idle then failedLoop else loopOn st 0) } }

/-- Allocation's four outcomes, each with the premise that the earlier steps find nothing. -/
theorem witness_AllocationSearchOrder :
    ((onlyL0 .locked).loop 0).state = .locked ∧ ((onlyL0 .locked).loop 0).run.map Run.entry = some 0 ∧
    matchEntry (onlyL0 .locked).plan 1000000 0 25000000 50 = some 5 ∧
    (∀ j, ((onlyL0 .waiting).loop j).state ≠ .locked) ∧ ((onlyL0 .waiting).loop 0).state = .waiting ∧
    (∀ j, (card.loop j).state = .idle) ∧ (card.loop 0).failed = none ∧ matchEntry card.plan 1000000 0 10000000 20 = none ∧
    matchEntry card.plan 1000000 1 10000000 20 = some 10 ∧
    (∀ k, ¬ (((onlyL0 .idle).loop k).state = .idle ∧ ((onlyL0 .idle).loop k).failed = none)) ∧
    (∀ i, matchEntry card.plan 1000000 i 250000000 500 = none) := by decide +kernel

/-- Just outside each range and just inside it. -/
theorem witness_RequestRefused :
    card.linkReady 2 ∧ (held card true).linkReady 2 ∧ card.maint.hold = false ∧ card.grantAt 4 = none ∧ (step1.grantAt 4).isSome = true ∧
    [ask .a 0 50, ask .a 250000001 50, ask .a 1 0, ask .a 1 501, { ask .a 1 1 with fd := 1 }, { ask .a 1 1 with lease := 3601 },
     { ask .a 1 1 with policy := .fallback }].all (fun a => !requestAcceptable a) = true ∧
    [ask .a 1 1, ask .a 250000000 500, { ask .a 1 1 with policy := .fallback, fd := 65535, lease := 3600 }].all requestAcceptable = true ∧
    card.allocate 250000000 500 none = none ∧ (∀ i, matchEntry card.plan 1000000 i 250000000 500 = none) ∧
    (onlyL0 .idle).allocate 25000000 50 none = none ∧ (matchEntry (onlyL0 .idle).plan 1000000 0 25000000 50).isSome = true := by
  unfold State.linkReady
  decide +kernel

theorem witness_RequestCreatesGrant :
    card.linkReady 11 ∧ card.grantAt (portOf 11 .b) = none ∧ (ask .b 25000000 50).align = none ∧
    card.allocate 25000000 50 none = some { loop := 0, entry := 0, d := 5 } ∧ (card.loop 0).state = .idle ∧
    (onlyL0 .locked).allocate 25000000 50 none = some { loop := 0, entry := 0, d := 5 } ∧
    (onlyL0 .tracking).allocate 25000000 50 none = some { loop := 0, entry := 0, d := 5 } ∧ (onlyL0 .tracking).linkReady 11 := by
  unfold State.linkReady
  decide +kernel

/-- L0 in a state on entry 0 with 3A/1, in a group of n members of line 3A on, with G. -/
def groupOn (st : LoopState) (n g : Nat) : State :=
  let s := place (onlyL0 st) 4 { grantOn .pending 25000000 50 0 0 5 with group := some 0 }
  s.setGroup 0 (some { loop := 0, g := g, members := own 4 :: (List.replicate (n - 1) (own 14)) })

/-- 3A/1 ungrouped, PENDING on L0 in a state. -/
def aloneOn (st : LoopState) : State := place (onlyL0 st) 4 (grantOn .pending 25000000 50 0 0 5)

/-- An aligned request for line A. -/
def alignedAsk (f tol : Nat) : RequestArgs := { ask .a f tol with align := some (own 4) }

theorem witness_AlignedRequestRefused :
    (aloneOn .locked).linkReady 0 ∧ (aloneOn .locked).maint.hold = false ∧ requestAcceptable (alignedAsk 25000000 50) = true ∧
    (aloneOn .locked).grantAt 0 = none ∧ card.resolve (own 4) = none ∧
    (aloneOn .locked).resolve (own 4) = some (grantOn .pending 25000000 50 0 0 5) ∧
    (∀ t f tol cut, (grantOn .pending 25000000 50 0 0 5).retune ≠ some (.newLoop t f tol cut)) ∧
    ((aloneOn .holdover).loop 0).state = .holdover ∧ ((aloneOn .locked).loop 0).state ≠ .holdover ∧
    matchEntry card.plan 1000000 0 20000000 100 = none ∧ matchEntry card.plan 1000000 0 25000000 50 = some 5 ∧
    rd (groupOn .locked 8 5).engine.groups 0 = some { loop := 0, g := 5, members := own 4 :: List.replicate 7 (own 14) } ∧
    4096 < lcmOf (5 :: 4095 :: [4]) ∧
    (∀ gi, (rd { card.engine with groups := fill 8 (some { loop := 0, g := 1, members := [] }) }.groups gi).isSome = true) ∧
    4096 < lcmOf [5, 64, 63] := by
  unfold State.linkReady
  refine ⟨by decide +kernel, by decide +kernel, by decide +kernel, by decide +kernel, by decide +kernel, by decide +kernel, ?_, by decide +kernel⟩
  intro t f tol cut h
  cases h

/-- A STRANDED grant, and one with a NEW_LOOP retune: R14 step 3. -/
theorem witness_AlignedRequestRefused_state :
    (place (onlyL0 .locked) 4 { grantOn .stranded 25000000 50 0 0 5 with binding := none }).resolve (own 4) =
      some { grantOn .stranded 25000000 50 0 0 5 with binding := none } ∧
    (table55.resolve (own 19)).bind Grant.retune = some (.newLoop { loop := 2, entry := 2, d := 7 } 23809524 20 .awaitingLock) := by
  decide +kernel

theorem witness_AlignedRequestFormsGroup :
    (aloneOn .acquiring).linkReady 7 ∧ (aloneOn .acquiring).grantAt 14 = none ∧
    (aloneOn .acquiring).resolve (own 4) = some (grantOn .pending 25000000 50 0 0 5) ∧
    ((aloneOn .acquiring).loop 0).state ≠ .holdover ∧ ((aloneOn .acquiring).loop 0).state ≠ .idle ∧
    matchEntry (aloneOn .acquiring).plan 1000000 0 12500000 100 = some 10 ∧ rd (aloneOn .acquiring).engine.groups 0 = none ∧
    lcmOf [10, 5] ≤ 4096 ∧ lcmOf [64, 64, 63] ≤ 4096 := by
  unfold State.linkReady
  decide +kernel

theorem witness_AlignedRequestJoinsGroup :
    (groupOn .locked 7 5).linkReady 7 ∧ (groupOn .locked 7 5).grantAt 14 = none ∧
    ((groupOn .locked 7 5).resolve (own 4)).bind Grant.group = some 0 ∧
    (rd (groupOn .locked 7 5).engine.groups 0).map (fun gr => gr.members.length) = some 7 ∧
    matchEntry (groupOn .locked 7 5).plan 1000000 0 12500000 100 = some 10 ∧
    lcmOf (10 :: 5 :: (groupOn .locked 7 5).memberDividers (own 4 :: List.replicate 6 (own 14))) ≤ 4096 := by
  unfold State.linkReady
  decide +kernel

/-- A grant with each retune record (R14 step 7, R112). -/
theorem witness_AlignmentDividers :
    (grantOn .active 1 1 0 0 5).binding = some { loop := 0, entry := 0, d := 5 } ∧ (grantOn .active 1 1 0 0 5).retune = none ∧
    { grantOn .active 1 1 0 0 5 with retune := some (.sameLoop 10 2 2) }.groupDividers = [5, 10] ∧
    (groupOn .locked 2 5).memberDividers [own 4, own 14] = [5] := by decide +kernel

theorem witness_RetirementRequested :
    (held table125 true).linkReady 8 ∧ table125.linkReady 8 ∧ (own 17).port.val / 2 = 8 ∧ (own 4).port.val / 2 ≠ 8 ∧
    table125.resolve { port := 17, gen := 2 } = none ∧ (table125.resolve (own 17)).isSome = true ∧ table125.restart.startUp = .running ∧
    (table125.grantAt 17).bind Grant.lease = some { period := 5, remaining := 0 } := by
  unfold State.linkReady
  decide +kernel

/-- An ungrouped grant; a group of two, dissolved, and a group of three, kept. -/
theorem witness_RetirementEffect :
    (table125.grantAt 17).isSome = true ∧ (table125.retire 17 .release).list 0 = [] ∧
    ((table124.grantAt 4).bind Grant.group = some 0 ∧
     rd table124.engine.groups 0 = some { loop := 0, g := 10, members := [own 4, own 14] } ∧
     ([own 4, own 14].filter (fun m => m != own 4)).length ≤ 1 ∧ (table124.retire 4 .forced).list 0 = [bound 9 10, bound 14 10]) ∧
    2 ≤ ([own 4, own 14, own 17].filter (fun m => m != own 4)).length := by decide +kernel

theorem witness_RenewRestartsLease :
    (held table125 true).maint.hold = true ∧ table125.linkReady 8 ∧ table125.maint.hold = false ∧ (own 4).port.val / 2 ≠ (8 : SlotIx).val ∧
    (own 17).port.val / 2 = (8 : SlotIx).val ∧ (3600 : Nat) ≤ 3600 ∧ table125.resolve { port := 17, gen := 0 } = none ∧
    (table125.resolve (own 17)).bind Grant.lease = some { period := 5, remaining := 0 } ∧
    (table63.resolve (own 17)).map Grant.lease = some none := by
  unfold State.linkReady
  decide +kernel

/-- A slot with a pending kind and with none, and a port whose kind stands at the last sequence number. -/
def noticed (pending : Bool) (seq : Mod16) : State :=
  { card with notices := {
      ports := fill 24 { kinds := fill 9 { pending := pending, seq := seq }, retired := none },
      slots := fill 12 { restarted := { pending := pending, seq := seq }, continued := { pending := pending, seq := seq } } } }

theorem witness_QueryAndNotices :
    (noticed true 15).linkReady 0 ∧ ((noticed true 15).noticeEntries 0).length = 20 ∧ (noticed false 15).noticeEntries 0 = [] ∧
    (noticed true 15).attn 0 = true ∧ ([portOf 8 .a, portOf 8 .b].filterMap table63.grantAt).length = 1 := by
  unfold State.linkReady
  decide +kernel

theorem witness_AckClears :
    (held (noticed true 15) false).linkReady 0 ∧ (held (noticed true 15) false).maint.hold = true ∧
    (held (noticed true 15) false).maint.allowAcks = false ∧ (held (noticed true 15) true).maint.allowAcks = true ∧
    (noticed true 15).linkReady 0 ∧ (noticed true 15).maint.hold = false ∧ 15 < 16 ∧
    (rd (rd (noticed true 15).notices.ports 0).kinds 8).pending = true ∧ (rd (rd (noticed true 15).notices.ports 0).kinds 8).seq.val = 15 ∧
    (15 : Mod16).val ≠ 0 ∧ (rd (noticed true 15).notices.slots 0).restarted.pending = true ∧
    (rd (noticed true 15).notices.slots 0).continued.seq.val = 15 ∧ (noticed false 3).linkReady 0 ∧
    (rd (noticed false 3).notices.slots 0).continued.pending = false := by
  unfold State.linkReady
  decide +kernel

theorem witness_HelloKeepsOrDrops :
    table63.linkReady 4 ∧ (held table63 true).linkReady 4 ∧ (held table63 true).maint.hold = true ∧ table63.maint.hold = false ∧
    (table63.grantAt 8).isSome = true ∧ (table63.grantAt 9).isSome = true := by
  unfold State.linkReady
  decide +kernel

/-! ### Witnesses: retunes -/

theorem witness_PortTargetByState :
    table55.portTarget grant10B = .fallback 100 ∧ table55.portTarget { grant10B with state := .pending } = .fallback 100 ∧
    table55.portTarget (grantOn .pending 25000000 50 0 0 5) = .loop 0 5 none ∧
    table55.portTarget { grantOn .degraded 1 1 1 1 10 with policy := .keep } = .loop 1 10 none ∧
    table55.portTarget { grantOn .active 1 1 0 0 5 with retune := some (.sameLoop 10 2 2) } = .loop 0 10 none ∧
    table55.portTarget { grant10B with retune := some (.newLoop { loop := 2, entry := 2, d := 7 } 1 1 .inFlight) } = .loop 2 7 none ∧
    table55.portTarget { grant10B with state := .stranded, binding := none, retune := none } = .fallback 100 := by decide +kernel

/-- 3A/1 STRANDED. -/
def strandedOn (s : State) : State := place s 4 { grantOn .stranded 25000000 50 0 0 5 with binding := none }

theorem witness_RetuneRefused :
    (held table63 true).linkReady 4 ∧ table63.linkReady 4 ∧ (own 4).port.val / 2 ≠ (4 : SlotIx).val ∧ (own 8).port.val / 2 = (4 : SlotIx).val ∧
    targetInRange 0 50 = false ∧ targetInRange 250000001 50 = false ∧ targetInRange 1 501 = false ∧ targetInRange 250000000 500 = true ∧
    table63.resolve { port := 8, gen := 2 } = none ∧ ((table55.resolve (own 19)).bind Grant.retune).isSome = true ∧ table55.linkReady 9 ∧
    (strandedOn (onlyL0 .idle)).resolve (own 4) = some { grantOn .stranded 25000000 50 0 0 5 with binding := none } ∧
    (strandedOn (onlyL0 .idle)).linkReady 2 ∧
    (strandedOn (onlyL0 .idle)).allocate 250000000 500 none = none ∧ (∀ i, matchEntry card.plan 1000000 i 250000000 500 = none) ∧
    (strandedOn (onlyL0 .idle)).allocate 25000000 50 none = none ∧ (matchEntry card.plan 1000000 0 25000000 50).isSome = true := by
  unfold State.linkReady
  decide +kernel

theorem witness_RetuneRefused_bound :
    ((groupOn .locked 2 4095).resolve (own 4)).map (fun g => (g.binding, g.group, g.retune)) =
      some (some { loop := 0, entry := 0, d := 5 }, some 0, none) ∧ (groupOn .locked 2 4095).linkReady 2 ∧
    matchEntry card.plan 1000000 0 20000000 50 = none ∧ matchEntry card.plan 1000000 0 31250000 50 = some 4 ∧
    4096 < (groupOn .locked 2 4095).retuneValue (own 4) { loop := 0, g := 4095, members := [own 4, own 14] } 4 ∧
    ((aloneOn .locked).resolve (own 4)).map (fun g => (g.group, g.retune)) = some (none, none) ∧
    (aloneOn .locked).allocate 20000000 50 (some 0) = none ∧ (matchEntry card.plan 1000000 1 20000000 50).isSome = true ∧
    ((aloneOn .locked).list 0).length = 1 ∧ (table63.list 0).length ≠ 1 := by
  unfold State.linkReady
  decide +kernel

theorem witness_RetuneOfStrandedGrant :
    (strandedOn card).linkReady 2 ∧ (strandedOn card).resolve (own 4) = some { grantOn .stranded 25000000 50 0 0 5 with binding := none } ∧
    (strandedOn card).allocate 20000000 50 none = some { loop := 0, entry := 1, d := 5 } ∧
    (strandedOn (onlyL0 .locked)).allocate 25000000 50 none = some { loop := 0, entry := 0, d := 5 } := by
  unfold State.linkReady
  decide +kernel

/-- 3A/1 ACTIVE in G1 of a LOCKED L0, with G 10 in force. -/
def groupedActive : State :=
  let s := place (onlyL0 .locked) 4 { grantOn .active 25000000 50 0 0 5 with group := some 0 }
  let s := s.setGroup 0 (some { loop := 0, g := 10, members := [own 4, own 14] })
  { s with switch := s.switch.giveDivider s.loops.loops s.station.station 0 0 10 }

theorem witness_RetuneOnOwnLoop :
    table63.linkReady 4 ∧ table63.resolve (own 9) = some { grantOn .active 12500000 100 0 0 10 with policy := .fallback, fd := some 80 } ∧
    matchEntry table63.plan 1000000 0 12500000 50 = some 10 ∧ matchEntry table63.plan 1000000 0 25000000 50 = some 5 ∧
    (aloneOn .locked).resolve (own 4) = some (grantOn .pending 25000000 50 0 0 5) ∧ (aloneOn .locked).linkReady 2 ∧
    (groupedActive.resolve (own 4)).map (fun g => (g.state, g.group)) = some (.active, some 0) ∧ groupedActive.linkReady 2 ∧
    groupedActive.retuneValue (own 4) { loop := 0, g := 10, members := [own 4, own 14] } 4 ≤ 4096 ∧
    rd groupedActive.switch.dividers 0 = some { loop := 0, value := 10, pendingValue := none, count := 0, stopped := false, origin := .begun 0 } := by
  unfold State.linkReady
  decide +kernel

theorem witness_RetuneElsewhere :
    table63.linkReady 4 ∧ (table63.resolve (own 8)).map (fun g => (g.binding, g.group, g.retune)) =
      some (some { loop := 1, entry := 1, d := 10 }, none, none) ∧
    matchEntry table63.plan 1000000 1 41666667 20 = none ∧
    table63.allocate 41666667 20 (some 1) = some { loop := 0, entry := 0, d := 3 } ∧ (table63.loop 0).state = .locked ∧
    table63.allocate 23809524 20 (some 1) = some { loop := 2, entry := 2, d := 7 } ∧ (table63.loop 2).state = .idle ∧
    (aloneOn .locked).linkReady 2 ∧ (aloneOn .locked).allocate 20000000 50 (some 0) = none ∧ ((aloneOn .locked).list 0).length = 1 ∧
    matchEntry card.plan 1000000 0 20000000 50 = none ∧ matchEntry card.plan 1000000 1 20000000 50 = some 5 := by
  unfold State.linkReady
  decide +kernel

/-! ### Witnesses: the maintenance port -/

/-- The four start-up states. -/
def settlingCard : State := startUpCard .settling (some 8) none false false
def restartingCard : State := startUpCard .restarting none (some 2) false false
def supplyHeldCard : State := startUpCard .supplyHeld none none false false

theorem witness_WriteTransferPlaced :
    [0x01#8, 0x00#8] ≠ [] ∧ card.restart.startUp = .running ∧ (parseCommand [0x01#8, 0x00#8]).isSome = true ∧
    parseCommand [0x01#8, 0x01#8] = none ∧ settlingCard.restart.startUp = .settling ∧ restartingCard.restart.startUp = .restarting ∧
    supplyHeldCard.restart.startUp = .supplyHeld ∧ commandBytes .restart = some [0x61#8, 0x00#8] ∧
    parseCommand [0x61#8, 0x00#8] = some .restart ∧ parseCommand [0x01#8, 0x00#8] ≠ some .restart := by decide +kernel

theorem witness_CommandForm :
    [0x00#8].length ≠ (0x00#8 : Byte).toNat ∧ ([] : List Byte).length = (0x00#8 : Byte).toNat ∧ parseCommandPayload 0x43 [] = some (.readGrant none) ∧
    parseCommandPayload 0x43 [0x17#8] = some (.readGrant (some 23)) ∧ parseCommandPayload 0x20 (List.replicate 10 0x00#8) = some (.writePlan noPlan) ∧
    0x62 ∉ [0x01, 0x10, 0x60, 0x61] := by decide +kernel

/-- Each enumerated field of a command at the last code of its enumeration and one past it (R172, R175, R179). -/
theorem witness_CommandForm_codes :
    parseCommandPayload 0x11 [0x02#8, 0x00#8, 0x98#8, 0x96#8, 0x80#8, 0x01#8] = some (.setReference .refb 10000000 true) ∧
    parseCommandPayload 0x11 [0x03#8, 0x00#8, 0x98#8, 0x96#8, 0x80#8, 0x01#8] = none ∧
    parseCommandPayload 0x11 [0x02#8, 0x00#8, 0x98#8, 0x96#8, 0x80#8, 0x02#8] = none ∧
    parseCommandPayload 0x12 [0x02#8, 0x01#8, 0x00#8, 0x01#8, 0x01#8, 0x00#8] = some (.setPriority .refb .refa .xo .nonrevertive 256) ∧
    parseCommandPayload 0x12 [0x02#8, 0x01#8, 0x03#8, 0x01#8, 0x01#8, 0x00#8] = none ∧
    parseCommandPayload 0x12 [0x02#8, 0x01#8, 0x00#8, 0x02#8, 0x01#8, 0x00#8] = none ∧
    parseCommandPayload 0x13 [0x01#8] = some (.setQualify .short) ∧ parseCommandPayload 0x13 [0x02#8] = none ∧
    parseCommandPayload 0x20 ([0x00#8, 0x00#8, 0x00#8, 0x00#8, 0x00#8, 0x00#8, 0x00#8, 0x02#8, 0x00#8, 0x00#8]) = none ∧
    parseCommandPayload 0x46 [0x04#8] = some (.ackAttention .referenceQualified) ∧ parseCommandPayload 0x46 [0x05#8] = none ∧
    parseCommandPayload 0x50 [0x17#8, 0x0F#8] = some (.forceRetire (some { port := 23, gen := 15 })) ∧
    parseCommandPayload 0x50 [0xFF#8, 0x0F#8] = some (.forceRetire none) ∧
    [[0x18#8, 0x00#8], [0xFE#8, 0x00#8], [0x17#8, 0x10#8], [0xFF#8, 0x10#8]].map (parseCommandPayload 0x50) = [none, none, none, none] ∧
    parseCommandPayload 0x52 [0x01#8, 0x01#8] = some (.holdOn true) ∧ parseCommandPayload 0x52 [0x00#8, 0x01#8] = some (.holdOff true) ∧
    [[0x02#8, 0x00#8], [0x00#8, 0x02#8]].map (parseCommandPayload 0x52) = [none, none] ∧
    parseCommandPayload 0x60 [0x01#8] = some (.setContinuity true) ∧ parseCommandPayload 0x60 [0x02#8] = none := by decide +kernel

theorem witness_ReadTransferAndStartUpCommands :
    ({ card with maint := { card.maint with response := some { status := .ok, payload := [] } } }).readTransfer = [0x00#8, 0x00#8] ∧
    card.maint.response = none ∧ card.readTransfer = [0x0F#8] ∧ settlingCard.readTransfer = [0x0F#8] ∧ supplyHeldCard.readTransfer = [] ∧
    (let s := { card with maint := { card.maint with waiting := some [0x01#8, 0x00#8] } }
     s.pending = [] ∧ parseCommand [0x01#8, 0x00#8] = some .identify ∧ (idled s).pending = [.identify]) := by decide +kernel

/-- The bytes a controller reads past a response and past NOT_READY (R173). -/
theorem witness_ReadTransferAndStartUpCommands_further :
    ({ card with maint := { card.maint with response := some { status := .ok, payload := [0x07#8] } } }).readBytes 5 =
      [0x00#8, 0x01#8, 0x07#8, 0xFF#8, 0xFF#8] ∧
    ({ card with maint := { card.maint with response := some { status := .ok, payload := [0x07#8] } } }).readBytes 2 = [0x00#8, 0x01#8] ∧
    card.readBytes 3 = [0x0F#8, 0xFF#8, 0xFF#8] ∧ settlingCard.readBytes 2 = [0x0F#8, 0xFF#8] ∧ supplyHeldCard.readBytes 2 = [] := by
  decide +kernel

theorem witness_ReadTransferAndStartUpCommands_startUp :
    (commandParts .identify).isSome = true ∧ (commandParts .restart).isSome = true ∧ Instr.identify ≠ .restart ∧
    settlingCard.restart.startUp = .settling ∧ restartingCard.restart.startUp = .restarting ∧ supplyHeldCard.restart.startUp = .supplyHeld := by
  decide +kernel

/-- IDENTIFY's sixth byte is a free value; the rest and two other payloads, byte by byte. -/
theorem witness_ReadCommandsAnswered :
    table63.restart.startUp = .running ∧ 32 ≤ 32 ∧ 24 ≤ 24 ∧ 12 < 13 ∧
    table63.identifyBytes.drop 12 = [0x00#8, 0x03#8, 0x02#8, 0x00#8] ∧
    table63.sweepBytes = [0x03#8, 0x08#8, 0x01#8, 0x01#8, 0x09#8, 0x01#8, 0x01#8, 0x11#8, 0x01#8, 0x01#8] ∧
    Attention.bytes { counts := #v[0, 1, 3, 0, 0], latched := some .loopFailed } =
      [0x01#8, 0x01#8, 0x00#8, 0x00#8, 0x01#8, 0x01#8, 0x01#8, 0x03#8, 0x00#8, 0x00#8, 0x00#8, 0x00#8] := by decide +kernel

/-- R178's lengths for no grant, a STRANDED grant, one binding and two; an absent handle of READ_PORT is all ones (R175); an EMPTY entry; a
line that runs and one in stasis. -/
theorem witness_ReadPayloads :
    card.grantBytes 4 = [0x00#8, 0x00#8] ∧ ((strandedOn card).grantBytes 4).length = 38 ∧ (table55.grantBytes 12).length = 42 ∧
    (table55.grantBytes 19).length = 46 ∧ (table55.grantBytes 19).drop 37 = [0x02#8, 0x01#8, 0x00#8, 0x04#8, 0x0A#8, 0x02#8, 0x01#8, 0x01#8, 0x07#8] ∧
    (card.portBytes 4).drop 26 = [0xFF#8, 0xFF#8] ∧ ((strandedOn card).portBytes 4).drop 26 = [0x04#8, 0x01#8] ∧
    (planBytes none 1000000).length = 19 ∧ (planBytes (rd card.plan 0) 1000000).length = 19 ∧
    table63.restart.startUp = .running ∧ (rd table63.switch.ports 9).current = .loop 0 10 none ∧
    (table63.loop 0).run = some { entry := 0, mode := .auto } ∧ table63.lineHertz 9 = 12500000 ∧
    (setLine card 4 (.fallback 80)).lineHertz 4 = 12500 ∧
    (let s := { card with switch := { card.switch with
       ports := wr card.switch.ports 4 { current := .fallback 80, switching := some { target := .none, stasis := true, lost := false }, count := 0, origin := .begun 0 } } }
     s.lineHertz 4 = 0) := by decide +kernel

/-! ### Witnesses: references, the plan and the settings -/

theorem witness_SelectorTakesChange :
    let lost := table126.station.setRef .refa { table126.station.ref .refa with state := .absent }
    table126.station.station = some .refa ∧ (table126.station.ref .refa).state = .qualified ∧ (lost.ref .refa).state ≠ .qualified ∧
    stationChange (some .refa) (table126.monitorsChange lost).station.station = some .lost ∧ table126.maint.attention.latched = none ∧
    (after (.referenceWindow .refa .noActivity) table126).maint.attention.latched = some .stationNone ∧
    table76.station.mode = .revertive ∧ table76.station.station = some .xo ∧
    table76.station.restore = some { candidate := .refa, remaining := 7000 } ∧
    (table76.monitorsChange table76.station).station.restore = some { candidate := .refa, remaining := 7000 } := by decide +kernel

theorem witness_LoopAtStationReference :
    (loopOn .tracking 0).state = .tracking ∧ (loopOn .locked 0).state = .locked ∧ (loopOn .waiting 0).state = .waiting ∧
    (loopOn .acquiring 0).state = .acquiring ∧ LoopRec.idle.state = .idle ∧ (loopOn .holdover 0).run.map Run.mode = some .auto ∧
    ({ loopOn .holdover 0 with run := some { entry := 0, mode := .timed 40 } }).run.map Run.mode = some (.timed 40) ∧ Ref.xo ≠ .refa := by
  decide +kernel

/-- A card with REFA in a state and its qualification timer. -/
def refaIn (st : RefState) (timer : Option Nat) : State :=
  { card with station := card.station.setRef .refa { card.station.ref .refa with state := st, qualTimer := timer } }

theorem witness_MonitorEvents :
    card.restart.startUp = .running ∧ ((refaIn .misfit none).station.ref .refa).state = .misfit ∧ (card.station.ref .refa).state = .absent ∧
    ((refaIn .outOfRange none).station.ref .refa).state = .outOfRange ∧ ((refaIn .qualified none).station.ref .refa).state = .qualified ∧
    100 < (-101 : Int).natAbs ∧ (-100 : Int).natAbs ≤ 100 ∧ ((refaIn .qualifying (some 0)).station.ref .refa).qualTimer = some 0 ∧
    ((refaIn .qualifying (some 1)).station.ref .refa).qualTimer ≠ some 0 ∧ (held (refaIn .qualifying (some 0)) false).maint.hold = true ∧
    ({ table76 with station := { table76.station with restore := some { candidate := .refa, remaining := 0 } } }).station.restore =
      some { candidate := .refa, remaining := 0 } ∧ card.station.restore = none := by decide +kernel

theorem witness_StationRateSet :
    card.restart.startUp = .running ∧ 999 < 1000 ∧ 10000000 < 10000001 ∧ 1000 ≤ 10000000 ∧
    allLoops.filter (fun k => (card.loop k).state != .idle) = [] ∧ allLoops.filter (fun k => (table63.loop k).state != .idle) = [0, 1] ∧
    (after (.setStation 1000) card).station.rate = 1000 ∧ (after (.setStation 10000000) table63).station.rate = 1000000 := by decide +kernel

theorem witness_ReferenceSet :
    card.restart.startUp = .running ∧ ¬ (1000 ≤ 999 ∧ 999 ≤ 100000000) ∧ (1000 ≤ 100000000 ∧ 100000000 ≤ 100000000) ∧
    table126.station.station = some .refa ∧ 20000000 ≠ (table126.station.ref .refa).nominal ∧ card.station.station ≠ some .refa ∧
    10000000 = (card.station.ref .refa).nominal ∧ (card.station.ref .refa).enabled = true ∧
    ((after (.setReference .refa 1500000 true) card).station.ref .refa).state = .misfit ∧
    (after (.setReference .refa 10000000 false) table126).station.station = none := by decide +kernel

theorem witness_SelectorSettings :
    card.restart.startUp = .running ∧ ¬ (Ref.xo ≠ .xo) ∧ (Ref.xo ≠ .refb ∧ Ref.refb ≠ .refa ∧ Ref.xo ≠ .refa) ∧ 1 ≤ 600 ∧ 600 < 601 ∧
    table76.station.station = some .xo ∧
    ([Ref.refa, .refb, .xo].takeWhile (fun r => r != .xo)).find? (fun r => (table76.station.ref r).state == .qualified) = some .refa ∧
    ([Ref.xo, .refa, .refb].takeWhile (fun r => r != .xo)).find? (fun r => (table76.station.ref r).state == .qualified) = none := by
  decide +kernel

theorem witness_PlanEntryStatusDerived :
    (entry 1 125 0 2 0).l = 0 ∧ (entry 1 125 0 2 31).derivedStatus 1000000 = .valid ∧ (entry 1 16 0 0 16).derivedStatus 1000000 = .valid ∧
    (entry 1 1000 0 2 250).derivedStatus 1000000 = .valid ∧ (entry 1 15 0 0 15).derivedStatus 1000000 = .outOfBand ∧
    (entry 1 1001 0 2 250).derivedStatus 1000000 = .outOfBand ∧ (entry 1 15 0 0 15).status ≠ .valid := by decide +kernel

theorem witness_MatchQueryAndSearches :
    rd card.plan 31 = none ∧ rd card.plan 0 = some (entry 1 125 0 2 31) ∧ (entry 1 125 0 2 31).satisfies 1000000 25000000 50 5 = true ∧
    (entry 1 125 0 2 31).satisfies 1000000 1953125 1 64 = true ∧ matchEntry card.plan 1000000 0 1953125 1 = some 64 := by decide +kernel

theorem witness_PlanWrittenAndErased :
    card.restart.startUp = .running ∧ 32 ≤ 32 ∧ ({ noPlan with entry := 31 }).entry = (31 : EntryIx).val ∧
    (after (.writePlan { entry := 31, r := 16, n := 4095, p := 3, e := 2, l := 255, timed := true, settle := 1000 }) card).plan ≠ card.plan ∧
    [{ noPlan with r := 17 }, { noPlan with n := 4096 }, { noPlan with p := 4 }, { noPlan with e := 3 }, { noPlan with l := 256 },
     { noPlan with settle := 1 }, { noPlan with timed := true }, { noPlan with timed := true, settle := 1001 }].all
      (fun a => (after (.writePlan a) card).plan = card.plan) = true ∧
    allLoops.filter (fun k => (table63.loop k).state != .idle && (table63.loop k).run.map Run.entry == some 0) = [0] ∧
    allLoops.filter (fun k => (table63.loop k).state != .idle && (table63.loop k).run.map Run.entry == some 2) = [] := by decide +kernel

theorem witness_SettingsTaken :
    card.restart.startUp = .running ∧ 9 < 10 ∧ 5000 < 5001 ∧ 3600 < 3601 ∧ (card.loop 0).failed = none ∧ ((onlyL0 .locked).loop 5).failed ≠ none ∧
    card.maint.hold = false ∧ (held card true).maint.hold = true ∧ rd card.maint.attention.counts Cause.loopFailed.index = 0 ∧
    (let t := after (.referenceWindow .refa .noActivity) table126
     rd t.maint.attention.counts Cause.stationNone.index ≠ 0 ∧ t.maint.attention.latched = some .stationNone) := by decide +kernel

/-! ### Witnesses: start-up and loops -/

theorem witness_RestartRequests :
    card.restart.startUp = .running ∧ card.restart.continuity = false ∧ (after (.setContinuity true) card).restart.continuity = true ∧
    settlingCard.restart.startUp = .settling ∧ restartingCard.restart.startUp = .restarting ∧ supplyHeldCard.restart.startUp = .supplyHeld ∧
    restartingCard.restart.restartTimer ≠ none ∧
    (let s := startUpCard .restarting none none true false
     s.restart.restartTimer = none ∧ s.restart.chassisHeld = false ∧ (after .panelRestartRelease s).restart.startUp = .running) ∧
    (let s := startUpCard .restarting none none true true
     s.restart.chassisHeld = true ∧ (after .panelRestartRelease s).restart.startUp = .restarting) := by decide +kernel

theorem witness_StartUpEvents :
    supplyHeldCard.restart.startUp = .supplyHeld ∧ card.restart.startUp ≠ .supplyHeld ∧ (settled false).restart.settleTimer = some 0 ∧
    (settled false).restart.panelHeld = false ∧ (settled true).restart.chassisHeld = true ∧ settlingCard.restart.settleTimer ≠ some 0 ∧
    (startUpCard .restarting none (some 0) false true).restart.restartTimer = some 0 ∧ Ref.xo ∈ card.station.priority := by decide +kernel

/-- The thresholds of Table 3-3 at their boundaries, the TIMED loop and the settle timer. -/
theorem witness_LockDetectorWindows :
    [20, 60, 300, 600].map (fun n => ((after (.loopWindow 0 (.ppm n)) (card.setLoop 0 (loopOn .acquiring 0))).loop 0).state) =
      [.tracking, .tracking, .tracking, .acquiring] ∧
    ((after (.loopWindow 0 (.ppm 601)) (card.setLoop 0 (loopOn .tracking 0))).loop 0).state = .acquiring ∧
    ((after (.loopWindow 0 (.ppm 61)) (card.setLoop 0 (loopOn .locked 0))).loop 0).state = .tracking ∧
    ((after (.loopWindow 0 .noActivity) (card.setLoop 0 (loopOn .locked 0))).loop 0).state = .acquiring ∧
    ((after (.loopWindow 0 (.ppm 60)) (card.setLoop 0 (loopOn .holdover 0))).loop 0).state = .locked ∧
    (let l : LoopRec := { loopOn .acquiring 0 with run := some { entry := 0, mode := .timed 1 }, timer := some { kind := .settle, remaining := 0 } }
     let s := card.setLoop 0 l
     (s.loop 0).run.map Run.mode = some (.timed 1) ∧ s.maint.hold = false ∧ (s.loop 0).state = .acquiring ∧
     ((after (.settleTimerExpiry 0) s).loop 0).state = .locked ∧ (held s true).maint.hold = true) ∧
    (card.loop 0).state = .idle ∧ (loopOn .tracking 0).good + 1 ≠ 4 := by decide +kernel

theorem witness_LoopFailureCarriedOut :
    table124.restart.startUp = .running ∧ table124.maint.hold = false ∧
    (table124.loop 0).timer = some { kind := .acquire, remaining := 0 } ∧ (table124.loop 0).state = .tracking ∧
    (let s := card.setLoop 5 { loopOn .holdover 0 with timer := some { kind := .holdover, remaining := 0 } }
     (s.loop 5).timer = some { kind := .holdover, remaining := 0 } ∧ (s.loop 5).state = .holdover ∧
     (after (.holdoverExpired 5) s).loop 5 = { LoopRec.idle with failed := some .holdoverExpired }) ∧
    (held table124 true).maint.hold = true ∧ (card.loop 0).timer = none := by decide +kernel

theorem witness_RescueOfOneBinding :
    (table55.resolve (own 11)).bind Grant.retune = some (.newLoop { loop := 1, entry := 1, d := 5 } 20000000 50 .awaitingLock) ∧
    { bound 11 5 with role := .retuneTarget }.handle = own 11 ∧
    (table55.resolve (own 19)).bind Grant.retune = some (.newLoop { loop := 2, entry := 2, d := 7 } 23809524 20 .awaitingLock) ∧
    (2 : LoopIx) ≠ 1 ∧ (bound 19 10).role = .current ∧
    (table55.resolve (own 12)).map (fun g => (g.retune, g.group)) = some (none, none) ∧
    table55.allocate 25000000 50 (some 1) = some { loop := 0, entry := 0, d := 5 } ∧ table55.allocate 10000000 20 (some 1) = none := by
  decide +kernel

/-- The same card with a SAME_LOOP retune on the ungrouped grant of 5B/1, and with one on the grouped grant of 3A/1. -/
def retuned124 : State :=
  (table124.updGrant 9 (fun g => { g with retune := some (.sameLoop 5 25000000 50) })).updGrant 4
    (fun g => { g with retune := some (.sameLoop 10 12500000 50) })

theorem witness_RescueOfOneBinding_sameLoop :
    (retuned124.resolve (own 9)).map (fun g => (g.retune, g.group)) = some (some (.sameLoop 5 25000000 50), none) ∧
    (bound 9 10).role = .current ∧
    (let t := retuned124.rescueBinding 0 (bound 9 10)
     t.list 3 = [bound 10 5, bound 9 10] ∧ rd (rd t.notices.ports 9).kinds 7 = { pending := true, seq := 1 } ∧
     rd (rd t.notices.ports 9).kinds 4 = { pending := true, seq := 1 }) := by decide +kernel

/-- The premises of a group's rescue at 3A/1 of Table 12-4, onto the LOCKED L3, and with L3 elsewhere, where no loop serves. -/
theorem witness_RescueOfAGroup :
    (bound 4 5).role = .current ∧ (retuned124.resolve (own 4)).bind Grant.group = some 0 ∧
    rd retuned124.engine.groups 0 = some { loop := 0, g := 10, members := [own 4, own 14] } ∧ ([own 4, own 14].map Handle.port).Nodup ∧
    (retuned124.resolve (own 4)).bind Grant.retune = some (.sameLoop 10 12500000 50) ∧
    (retuned124.resolve (own 14)).map Grant.retune = some none ∧
    (3 : LoopIx) ≠ 0 ∧ (retuned124.loop 3).state = .locked ∧ (retuned124.loop 3).run.map Run.entry = some 0 ∧ lcmOf [5, 10] ≤ 4096 ∧
    matchEntry retuned124.plan 1000000 0 25000000 50 = some 5 ∧ matchEntry retuned124.plan 1000000 0 12500000 100 = some 10 ∧
    (∀ l : LoopIx, l < 3 → (retuned124.loop l).state ≠ .locked) ∧
    (let t := retuned124.rescueBinding 0 (bound 4 5)
     rd t.engine.groups 0 = some { loop := 3, g := 10, members := [own 4, own 14] } ∧ t.list 3 = [bound 10 5, bound 4 5, bound 14 10] ∧
     rd (rd t.notices.ports 4).kinds 7 = { pending := true, seq := 1 }) ∧
    (let s := retuned124.setLoop 3 (loopOn .locked 2)
     matchEntry s.plan 1000000 2 25000000 50 = none ∧ (∀ l : LoopIx, (s.loop l).state = .locked → l = 3) ∧
     (∀ l : LoopIx, l ≠ 0 → (s.loop l).state ≠ .acquiring ∧ (s.loop l).state ≠ .tracking ∧ (s.loop l).state ≠ .waiting) ∧
     (∀ l : LoopIx, (s.loop l).state = .idle → (s.loop l).failed ≠ none) ∧
     rd (s.rescueBinding 0 (bound 4 5)).engine.groups 0 = none) := by decide +kernel

/-- A card with one lock event of L0 to be taken. -/
def lockEventOf (kind : LockEventKind) (st : LoopState) (s : State) : State :=
  { s with loops := { s.loops with events := wr s.loops.events 0 [{ kind := kind, state := st }] } }

theorem witness_LockEventsTaken :
    rd card.loops.events 0 = [] ∧ rd (lockEventOf .gained .locked table63).loops.events 0 = [{ kind := .gained, state := .locked }] ∧
    card.resolve (bound 4 5).handle = none ∧ table63.resolve (bound 17 10).handle = some (grantOn .active 12500000 100 0 0 10) ∧
    (aloneOn .locked).resolve (bound 4 5).handle = some (grantOn .pending 25000000 50 0 0 5) ∧
    (table55.resolve (own 6)).map (fun g => (g.state, g.policy)) = some (.degraded, .keep) ∧
    (groupedActive.resolve (own 4)).bind Grant.group = some 0 ∧
    (strandedOn card).resolve (own 4) = some { grantOn .stranded 25000000 50 0 0 5 with binding := none } ∧
    (table55.resolve (own 11)).bind Grant.retune = some (.newLoop { loop := 1, entry := 1, d := 5 } 20000000 50 .awaitingLock) ∧
    (let s := after (.retune 8 0 (retuneTo 17 25000000 50)) table63
     (s.resolve (own 17)).bind Grant.retune = some (.sameLoop 5 25000000 50) ∧
     (let t := after (.lockLost 0) (lockEventOf .lost .tracking s)
      (t.grantAt 17).map (fun g => (g.state, g.f, g.binding, g.retune)) =
        some (.degraded, 25000000, some { loop := 0, entry := 0, d := 5 }, none))) := by decide +kernel

/-! ### Witnesses: ports -/

/-- Port 3A switching from one source toward another. -/
def switchingPort (s : State) (x y : Source) (stasis lost : Bool) : State :=
  { s with switch := { s.switch with
      ports := wr s.switch.ports 4 { current := x, switching := some { target := y, stasis := stasis, lost := lost }, count := 0, origin := .begun 0 } } }

/-- Dividers of 1, 4 and 5, half-period by half-period (R72). -/
theorem test_dividerLow :
    [0, 1, 2, 3].map (dividerLow 1) = [false, true, false, true] ∧
    [0, 3, 4, 7, 8].map (dividerLow 4) = [false, false, true, true, false] ∧
    [0, 5, 6, 9, 10].map (dividerLow 5) = [false, false, true, true, false] := by decide +kernel

/-- Two lines of one divider and one origin in step with G1, and two of a divider of 1 whose counts began apart; and the line of a port that is
OFF, silent or in stasis. -/
theorem witness_PortSwitches_lines :
    (let s := setLine (setLine groupedActive 4 (.loop 0 5 (some 0))) 14 (.loop 0 5 (some 0))
     rd s.switch.dividers 0 = some { loop := 0, value := 10, pendingValue := none, count := 0, stopped := false, origin := .begun 0 } ∧ 10 % 5 = 0 ∧
     (rd s.switch.ports 14).current = (rd s.switch.ports 4).current ∧ (rd s.switch.ports 14).switching = none ∧
     (rd s.switch.ports 14).origin = (rd s.switch.ports 4).origin ∧
     silentSource s.loops.loops s.station.station (.loop 0 5 (some 0)) = false) ∧
    (Source.loop 0 1 none).input = (Source.loop 0 1 (some 0)).input ∧ (Source.fallback 1).divider = 1 ∧ CountOrigin.begun 0 ≠ .begun 1 ∧
    card.switch.lineLow card.loops.loops card.station.station 4 = true ∧
    (let s := switchingPort card (.fallback 80) .none true false
     s.switch.lineLow s.loops.loops s.station.station 4 = true) ∧
    (let s := setLine card 4 (.fallback 80)
     s.switch.lineLow s.loops.loops none 4 = true) := by decide +kernel

/-- Two ports in step with G1 keep one origin, and with it their lines, when G1's divider is released and when it moves (R83, R84). -/
theorem test_inStepLines :
    let s := setLine (setLine groupedActive 4 (.loop 0 5 (some 0))) 14 (.loop 0 5 (some 0))
    let alone : PortRec := { current := .loop 0 5 none, switching := none, count := 0, origin := .begun 0 }
    [s.switch.releaseDivider s.loops.loops s.station.station 0, s.switch.giveDivider s.loops.loops s.station.station 0 3 10].map
      (fun u => [rd u.ports 4, rd u.ports 14]) = [[alone, alone], [alone, alone]] := by decide +kernel

/-- Asked at one moment, the count of moments stands still within the action and moves on once at its end (log 6). -/
theorem test_oneMoment :
    (let ask : PortIx → State → State := fun p s => s.requestSwitch p .none
     let s := setLine (setLine card 4 (.fallback 80)) 5 (.fallback 80)
     (s.oneMoment (fun s => ask 5 (ask 4 s))).switch.draws = s.switch.draws + 1 ∧
     (s.oneMoment (fun s => ask 5 (ask 4 s))).switch.sameMoment = false ∧ (ask 5 (ask 4 s)).switch.draws = s.switch.draws + 2) := by
  refine ⟨rfl, rfl, rfl⟩

theorem witness_PortSwitches :
    (rd card.switch.ports 4).switching = none ∧
    (let s := switchingPort (onlyL0 .locked) (.fallback 80) (.loop 0 5 none) false false
     rd (after (.stasisBegins 4) s).switch.ports 4 =
       { current := .fallback 80, switching := some { target := .loop 0 5 none, stasis := true, lost := false }, count := 0, origin := .begun 0 } ∧
     after (.portSwitchCompletes 4) s = s) ∧
    (let s := switchingPort (onlyL0 .locked) (.fallback 80) (.loop 0 5 none) true false
     rd (after (.portSwitchCompletes 4) s).switch.ports 4 = { current := .loop 0 5 none, switching := none, count := 6, origin := .begun 0 } ∧
     rd (after (.portSwitchCompletes 4) s).switch.reports 4 = [.completion (.loop 0 5 none)] ∧ after (.stasisBegins 4) s = s) ∧
    (PortRec.advance card.loops.loops (some .xo)
      { current := .none, switching := some { target := .loop 0 5 none, stasis := false, lost := true }, count := 0, origin := .unbegun } =
        (PortRec.off, [.void (.loop 0 5 none)])) ∧
    silentSource card.loops.loops none (.fallback 1) = true ∧ silentSource (onlyL0 .waiting).loops.loops none (.loop 0 5 none) = true := by
  decide +kernel

/-- A rollover at which a port in stasis joins, and the four cases of a value given. -/
theorem witness_GroupDividers :
    rd card.switch.dividers 0 = none ∧
    (let s := switchingPort groupedActive (.fallback 80) (.loop 0 5 (some 0)) true false
     (s.loop 0).state = .locked ∧ rd s.switch.dividers 0 = some { loop := 0, value := 10, pendingValue := none, count := 0, stopped := false, origin := .begun 0 } ∧
     rd (after (.groupRollover 0) s).switch.ports 4 = { current := .loop 0 5 (some 0), switching := none, count := 0, origin := .begun 0 } ∧
     rd (s.switch.giveDivider s.loops.loops s.station.station 0 0 20).dividers 0 =
       some { loop := 0, value := 10, pendingValue := some 20, count := 0, stopped := false, origin := .begun 0 } ∧
     s.switch.giveDivider s.loops.loops s.station.station 0 0 10 = s.switch ∧
     rd (s.switch.giveDivider s.loops.loops s.station.station 0 3 10).dividers 0 =
       some { loop := 3, value := 10, pendingValue := none, count := 0, stopped := false, origin := .begun 1 }) ∧
    (let s := setLine groupedActive 4 (.loop 0 5 (some 0))
     (rd s.switch.ports 4).current.group = some 0 ∧ 10 % 5 = 0 ∧ 10 % 4 ≠ 0) ∧
    (let s := setLine groupedActive 4 (.loop 0 5 (some 0))
     let t := after (.groupRollover 0) { s with switch := s.switch.giveDivider s.loops.loops s.station.station 0 0 20 }
     rd t.switch.dividers 0 = some { loop := 0, value := 20, pendingValue := none, count := 0, stopped := false, origin := .takeover (.begun 0) 10 1 } ∧
     (rd t.switch.ports 4).origin = .takeover (.begun 0) 10 1 ∧ t.switch.starts = 2 ∧ 5 ∣ 10) := by decide +kernel

/-- L0 gone IDLE: a port in stasis toward it ends void, one whose line runs loses its target and goes on, one on it in a switch away begins its
stasis, one at rest on it keeps its record, and its divider stops (R77, R80, R85). -/
theorem witness_LoopFailureCarriedOut_ports :
    (card.loop 0).state = .idle ∧
    (let gone : State → State := fun s => { s with switch := s.switch.loopIdle card.loops.loops (some .xo) 0 }
     let at4 : State → PortRec := fun s => rd s.switch.ports 4
     at4 (gone (switchingPort card (.fallback 80) (.loop 0 5 none) true false)) = PortRec.off ∧
     rd (gone (switchingPort card (.fallback 80) (.loop 0 5 none) true false)).switch.reports 4 = [.void (.loop 0 5 none)] ∧
     at4 (gone (switchingPort card (.fallback 80) (.loop 0 5 none) false false)) =
       at4 (switchingPort card (.fallback 80) (.loop 0 5 none) false true) ∧
     at4 (gone (switchingPort card (.loop 0 5 none) (.fallback 80) false false)) =
       at4 (switchingPort card (.loop 0 5 none) (.fallback 80) true false) ∧
     at4 (gone (switchingPort card (.fallback 81) (.fallback 80) false false)) =
       at4 (switchingPort card (.fallback 81) (.fallback 80) false false) ∧
     at4 (gone (setLine card 4 (.loop 0 5 none))) = at4 (setLine card 4 (.loop 0 5 none)) ∧
     (rd (gone groupedActive).switch.dividers 0).map GroupDivider.stopped = some true) := by decide +kernel

/-- A retirement that dissolves a group and stops a loop: the divider is released, a switch of another port toward the loop loses its target
(R84, R77), and the retired port is asked OFF. -/
theorem witness_RetirementEffect_ports :
    rd (table124.retire 4 .forced).switch.dividers 0 = none ∧
    (let s := switchingPort table125 (.fallback 80) (.loop 0 5 none) false false
     let t := s.retire 17 .release
     (t.loop 0).state = .idle ∧ rd t.switch.ports 4 = rd (switchingPort table125 (.fallback 80) (.loop 0 5 none) false true).switch.ports 4 ∧
     rd t.switch.ports 17 = PortRec.off ∧ rd t.switch.reports 4 = []) := by decide +kernel

/-- A card with one report of port 3A to be taken. -/
def reportOf (r : Report) (s : State) : State := { s with switch := { s.switch with reports := wr s.switch.reports 4 [r] } }

/-- Port 10B on L2, LOCKED, its cut-over in flight and complete. -/
def cutOver : State :=
  let s := setLine ((table55.setLoop 2 (loopOn .locked 2)).setGrant 19
    (some { grant10B with retune := some (.newLoop { loop := 2, entry := 2, d := 7 } 23809524 20 .inFlight) })) 19 (.loop 2 7 none)
  { s with switch := { s.switch with reports := wr s.switch.reports 19 [.completion (.loop 2 7 none)] } }

theorem witness_SwitchReportsTaken :
    rd card.switch.reports 4 = [] ∧ rd (reportOf (.void (.loop 0 5 none)) (aloneOn .locked)).switch.reports 4 = [.void (.loop 0 5 none)] ∧
    (aloneOn .locked).grantAt 4 = some (grantOn .pending 25000000 50 0 0 5) ∧ (rd (aloneOn .locked).switch.ports 4).switching = none ∧
    (rd (aloneOn .locked).switch.ports 4).current = .none ∧
    (let t := after (.switchCompletion 4) (reportOf (.completion (.loop 0 5 none)) (setLine (aloneOn .locked) 4 (.loop 0 5 none)))
     (t.grantAt 4).map Grant.state = some .active ∧ rd (rd t.notices.ports 4).kinds 0 = { pending := true, seq := 1 }) ∧
    (let t := after (.switchCompletion 19) cutOver
     t.grantAt 19 = some { grantOn .active 23809524 20 2 2 7 with policy := .fallback, fd := some 100 } ∧ t.list 2 = [bound 19 7] ∧
     rd (rd t.notices.ports 19).kinds 6 = { pending := true, seq := 1 }) ∧
    (let s := after (.retune 8 0 (retuneTo 17 25000000 50)) table63
     let s := setLine s 17 (.loop 0 5 none)
     let s := { s with switch := { s.switch with reports := wr s.switch.reports 17 [.completion (.loop 0 5 none)] } }
     ((after (.switchCompletion 17) s).grantAt 17).map (fun g => (g.state, g.binding, g.retune)) =
       some (.active, some { loop := 0, entry := 0, d := 5 }, none)) := by decide +kernel

/-- A settled completion x at port 3A of a card. -/
def arrived (s : State) (x : Source) : State := after (.switchCompletion 4) (reportOf (.completion x) (setLine s 4 x))

/-- A grouped commit makes G the least common multiple; completions not onto the target of a retune in flight, SAME_LOOP and NEW_LOOP; and a
commit that takes the last binding of the old loop stops it. -/
theorem witness_SwitchReportsTaken_retunes :
    (let s := groupedActive.updGrant 4 (fun g => { g with retune := some (.sameLoop 4 31250000 50) })
     let t := arrived s (.loop 0 4 (some 0))
     (s.grantAt 4).map (fun g => (g.state, g.group)) = some (.active, some 0) ∧
     rd t.engine.groups 0 = some { loop := 0, g := 20, members := [own 4, own 14] } ∧ t.list 0 = [bound 4 4] ∧
     t.grantAt 4 = some { grantOn .active 31250000 50 0 0 4 with group := some 0 } ∧
     (arrived s (.loop 0 5 (some 0))).grantAt 4 = s.grantAt 4 ∧
     (rd (arrived s .none).switch.ports 4).switching.map Switching.target = some (.loop 0 4 (some 0))) ∧
    (let s := (aloneOn .locked).setGrant 4 (some { grantOn .pending 25000000 50 0 0 5 with
       retune := some (.newLoop { loop := 2, entry := 2, d := 7 } 23809524 20 .inFlight) })
     ((arrived s (.loop 0 5 none)).grantAt 4).map Grant.state = some .active) ∧
    (let s := cutOver.setList 1 [bound 19 10]
     let t := after (.switchCompletion 19) s
     (s.grantAt 19).bind Grant.binding = some { loop := 1, entry := 1, d := 10 } ∧ t.list 1 = [] ∧ t.loop 1 = LoopRec.idle ∧
     ((s.list 1).any (fun y => y.handle == own 19)) = true) := by decide +kernel

/-! ### Witnesses: the invariants hold in a state a run reaches -/

theorem witness_EveryStepKeepsLatchAndSelector : card.maint.attention.Sound ∧ card.station.Sound := by
  refine ⟨⟨(by intro c h; cases h), ?_, by decide +kernel⟩, ⟨?_, (by intro h; cases h), ?_, ?_, by decide +kernel⟩⟩
  · intro _ c; cases c <;> decide +kernel
  · intro r h; cases h; decide +kernel
  · intro r; cases r <;> refine ⟨?_, ?_, ?_⟩ <;> decide +kernel
  · intro r; cases r <;> decide +kernel

theorem witness_EveryStepKeepsStartUpAndBuffers : card.StartUpSound ∧ card.BuffersSound := by
  refine ⟨⟨by decide +kernel, by decide +kernel, by decide +kernel, fun h => absurd rfl h, by decide +kernel, by decide +kernel, by decide +kernel⟩,
    ⟨by decide +kernel, (by intro bytes h; cases h)⟩⟩

theorem witness_EveryStepKeepsLoopsAndPorts : card.LoopsSound ∧ card.PortsSound := by
  have idle : ∀ k, card.loop k = LoopRec.idle := by decide +kernel
  have off : ∀ p, rd card.switch.ports p = PortRec.off := by decide +kernel
  refine ⟨fun k => ?_, fun p => ?_⟩
  · rw [idle k]; constructor <;> decide +kernel
  · rw [off p]; constructor <;> intro sw h <;> cases h

theorem witness_steps : step card = .next (idled card) ∧ card.pending = [] := ⟨rfl, rfl⟩

end Sys2Proof.Tests
end

/-! The refusals of a REQUEST (01 R8, R10): what the grant engine answers at each check, in the order of the checks, and what that answer does at a
ready link. -/

namespace Sys2Proof.Machine

/-! ### A refused request at a ready link -/

/-- A refused request changes nothing but its link, whose current answer is then the refusal (09 R157). -/
theorem exec_slotRow_refused {s : State} {slot : SlotIx} {r : SlotReq} {st : LinkStatus} (tag : Tag) (ready : s.linkReady slot)
    (refused : s.serve slot r = (s, Answer.bare st)) :
    exec (slotRow slot tag r) s = .next (s.answer slot tag (Answer.bare st)) := by
  rw [exec_slotRow, slotRequest_ready s slot tag r ready, refused]

/-! ### The status of a failed allocation (01 R10) -/

theorem refusal_eq_noMatch {s : State} {f tol : Nat} (unsatisfied : ∀ i, matchEntry s.plan s.station.rate i f tol = none) :
    s.refusal f tol = .noMatch := by
  have nothing : findEntry s.plan s.station.rate f tol = none := (findEntry_none _ _ _ _).mpr unsatisfied
  simp [State.refusal, anyEntrySatisfies, nothing]

theorem refusal_eq_noLoop {s : State} {f tol : Nat} (satisfied : ∃ i, (matchEntry s.plan s.station.rate i f tol).isSome = true) :
    s.refusal f tol = .noLoop := by
  obtain ⟨i, hi⟩ := satisfied
  have found : findEntry s.plan s.station.rate f tol ≠ none := fun nothing => by
    simp [(findEntry_none _ _ _ _).mp nothing i] at hi
  simp [State.refusal, anyEntrySatisfies, Option.isSome_iff_ne_none.mpr found]

/-! ### The checks of a REQUEST, each with those before it passed (01 R8) -/

section Checks

variable {s : State} {slot : SlotIx} {a : RequestArgs}

theorem serveRequest_held (hold : s.maint.hold = true) : s.serveRequest slot a = (s, Answer.bare .held) := by
  simp [State.serveRequest, hold]

theorem serveRequest_badRequest (hold : s.maint.hold = false) (bad : requestAcceptable a = false) :
    s.serveRequest slot a = (s, Answer.bare .badRequest) := by
  simp [State.serveRequest, hold, bad]

theorem serveRequest_inUse (hold : s.maint.hold = false) (acceptable : requestAcceptable a = true)
    (used : (s.grantAt (portOf slot a.line)).isSome = true) : s.serveRequest slot a = (s, Answer.bare .inUse) := by
  simp [State.serveRequest, hold, acceptable, used]

theorem serveRequest_unallocated (hold : s.maint.hold = false) (acceptable : requestAcceptable a = true)
    (free : s.grantAt (portOf slot a.line) = none) (unaligned : a.align = none) (failed : s.allocate a.f a.tol none = none) :
    s.serveRequest slot a = (s, Answer.bare (s.refusal a.f a.tol)) := by
  simp [State.serveRequest, hold, acceptable, free, unaligned, failed]

end Checks

/-- Settles O15: each check of 01 R8 in turn, and the status of a failed allocation by whether the plan search of 02 R41 finds an entry. -/
theorem requestRefused : Obligations.RequestRefused := by
  unfold Obligations.RequestRefused
  intro s slot tag a ready p inRange refused
  have acceptable_iff : requestAcceptable a = true ↔ inRange := requestAcceptable_iff a
  have answered : ∀ {st}, s.serveRequest slot a = (s, Answer.bare st) → refused st :=
    exec_slotRow_refused (r := .request a) tag ready
  refine ⟨fun hold => ?held, fun hold bad => ?badRequest, fun hold ok used => ?inUse, fun hold ok free unaligned failed => ?failed⟩
  case held => exact answered (serveRequest_held hold)
  case badRequest =>
    have unacceptable : requestAcceptable a = false := Bool.eq_false_iff.mpr (mt acceptable_iff.mp bad)
    exact answered (serveRequest_badRequest hold unacceptable)
  case inUse => exact answered (serveRequest_inUse hold (acceptable_iff.mpr ok) used)
  case failed =>
    have unallocated := serveRequest_unallocated hold (acceptable_iff.mpr ok) free unaligned failed
    constructor
    · intro unsatisfied
      exact answered (refusal_eq_noMatch unsatisfied ▸ unallocated)
    · intro satisfied
      exact answered (refusal_eq_noLoop satisfied ▸ unallocated)

end Sys2Proof.Machine

/-! The rate plan (02 R28 to R41): entry status and match test on whole numbers, the match query and the searches by the least success, and
SET_STATION in the order of its checks. -/

namespace Sys2Proof.Machine

/-! ### The numbers of an entry as integers (02 R28, R30) -/

theorem absDiff_cast (a b : Nat) : ((absDiff a b : Nat) : Int) = |(a : Int) - b| := by
  unfold absDiff
  rcases Nat.le_total a b with below | above
  · rw [abs_of_nonpos (by omega)]; omega
  · rw [abs_of_nonneg (by omega)]; omega

section Entry

variable (e : PlanEntry) (rate : Nat)

theorem PlanEntry.effR_cast : (e.effR : Int) = if e.r = 0 then 1 else (e.r : Int) := by
  simp only [PlanEntry.effR, Nat.cast_ite, Nat.cast_one]

theorem PlanEntry.effN_cast : (e.effN : Int) = if e.n = 0 then 1 else (e.n : Int) := by
  simp only [PlanEntry.effN, Nat.cast_ite, Nat.cast_one]

theorem PlanEntry.freqNum_cast :
    (e.freqNum rate : Int) = rate * (if e.n = 0 then 1 else (e.n : Int)) * 2 ^ e.p := by
  simp only [PlanEntry.freqNum, Nat.cast_mul, Nat.cast_pow, Nat.cast_ofNat, e.effN_cast]

/-! ### The derived status (02 R31) -/

/-- The three conditions under which an entry with a nonzero L is VALID (02 R31). -/
def PlanEntry.InBand : Prop :=
  16000000 * (e.effR : Int) ≤ e.freqNum rate ∧ (e.freqNum rate : Int) ≤ 1000000000 * e.effR ∧
    |(e.freqNum rate : Int) - e.l * 2 ^ e.e * 1000000 * e.effR| ≤ 2 ^ e.e * 500000 * e.effR

theorem PlanEntry.inBand_iff : e.InBand rate ↔
    16000000 * e.effR ≤ e.freqNum rate ∧ e.freqNum rate ≤ 1000000000 * e.effR ∧
      absDiff (e.freqNum rate) (e.l * 2 ^ e.e * 1000000 * e.effR) ≤ 2 ^ e.e * 500000 * e.effR := by
  simp only [PlanEntry.InBand, ← Nat.cast_le (α := Int), absDiff_cast, Nat.cast_mul, Nat.cast_pow, Nat.cast_ofNat]

variable {e rate}

theorem PlanEntry.derivedStatus_disabled (zero : e.l = 0) : e.derivedStatus rate = .disabled := by
  rw [PlanEntry.derivedStatus, if_pos zero]

theorem PlanEntry.derivedStatus_valid (nonzero : e.l ≠ 0) (inBand : e.InBand rate) : e.derivedStatus rate = .valid := by
  rw [PlanEntry.derivedStatus, if_neg nonzero, if_pos ((e.inBand_iff rate).mp inBand)]

theorem PlanEntry.derivedStatus_outOfBand (nonzero : e.l ≠ 0) (outside : ¬ e.InBand rate) : e.derivedStatus rate = .outOfBand := by
  rw [PlanEntry.derivedStatus, if_neg nonzero, if_neg (mt (e.inBand_iff rate).mpr outside)]

/-! ### The match test and the match query (02 R39, R40) -/

theorem PlanEntry.satisfies_iff {f tol d : Nat} : e.satisfies rate f tol d = true ↔
    e.status = .valid ∧ |(e.freqNum rate : Int) - f * d * e.effR| * 1000000 ≤ tol * f * d * e.effR ∧
      (e.freqNum rate : Int) ≤ 250000000 * d * e.effR := by
  simp only [PlanEntry.satisfies, Bool.and_eq_true, beq_iff_eq, decide_eq_true_eq, and_assoc, ← Nat.cast_le (α := Int), absDiff_cast,
    Nat.cast_mul, Nat.cast_ofNat]

theorem mem_portDividers (d : Nat) : d ∈ portDividers ↔ 1 ≤ d ∧ d ≤ 64 := by
  simp only [portDividers, List.mem_range'_1]
  omega

theorem PlanEntry.matchTarget_none_of_not_valid (invalid : e.status ≠ .valid) (f tol : Nat) : e.matchTarget rate f tol = none := by
  refine List.find?_eq_none.mpr fun d _ satisfied => ?_
  exact invalid (PlanEntry.satisfies_iff.mp satisfied).1

theorem PlanEntry.matchTarget_eq_some {f tol d : Nat} : e.matchTarget rate f tol = some d ↔
    1 ≤ d ∧ d ≤ 64 ∧ e.satisfies rate f tol d = true ∧ ∀ c, 1 ≤ c → c < d → e.satisfies rate f tol c = false := by
  have least := List.find?_range'_eq_some (s := 1) (n := 64) (i := d) (p := fun d => e.satisfies rate f tol d)
  have range : d ∈ List.range' 1 64 ↔ 1 ≤ d ∧ d ≤ 64 := mem_portDividers d
  simp only [range, Bool.not_eq_true'] at least
  exact least.trans (by tauto)

theorem PlanEntry.matchTarget_isSome {f tol : Nat} :
    (e.matchTarget rate f tol).isSome = true ↔ ∃ d, 1 ≤ d ∧ d ≤ 64 ∧ e.satisfies rate f tol d = true := by
  simp only [PlanEntry.matchTarget, List.find?_isSome, mem_portDividers, and_assoc]

end Entry

/-! ### The plan searches (02 R41) -/

/-- A search over a rising list of every index finds what the least index that succeeds finds. -/
theorem findSome_eq_some_iff_least {n : Nat} {α : Type} {l : List (Fin n)} (rising : l.Pairwise (· < ·)) (every : ∀ i, i ∈ l)
    (f : Fin n → Option α) (x : α) : l.findSome? f = some x ↔ ∃ k, f k = some x ∧ ∀ j < k, f j = none := by
  constructor
  · intro found
    obtain ⟨before, k, later, rfl, success, failures⟩ := List.findSome?_eq_some_iff.mp found
    refine ⟨k, success, fun j below => ?_⟩
    have above : ∀ i ∈ later, k < i := (List.pairwise_cons.mp (List.pairwise_append.mp rising).2.1).1
    rcases List.mem_append.mp (every j) with earlier | rest
    · exact failures j earlier
    · rcases List.mem_cons.mp rest with same | after
      · exact absurd (same ▸ below) (lt_irrefl k)
      · exact absurd below (lt_asymm (above j after))
  · rintro ⟨k, success, failures⟩
    exact findSome_least f k x success failures l rising (every k)

section Plan

variable {plan : Vector (Option PlanEntry) 32} {rate f tol : Nat} {i : EntryIx}

theorem matchEntry_empty (empty : rd plan i = none) : matchEntry plan rate i f tol = none := by
  rw [matchEntry, empty, Option.bind_none]

theorem matchEntry_written {e : PlanEntry} (written : rd plan i = some e) : matchEntry plan rate i f tol = e.matchTarget rate f tol := by
  rw [matchEntry, written, Option.bind_some]

theorem matchEntry_isSome : (matchEntry plan rate i f tol).isSome = true ↔
    ∃ e d, rd plan i = some e ∧ 1 ≤ d ∧ d ≤ 64 ∧ e.satisfies rate f tol d = true := by
  cases content : rd plan i with
  | none => simp [matchEntry_empty content]
  | some e => simp [matchEntry_written content, PlanEntry.matchTarget_isSome]

theorem findEntry_eq_some {d : Nat} : findEntry plan rate f tol = some (i, d) ↔
    matchEntry plan rate i f tol = some d ∧ ∀ j < i, matchEntry plan rate j f tol = none := by
  rw [findEntry, findSome_eq_some_iff_least allEntries_rising mem_allEntries]
  simp only [Option.map_eq_some_iff, Option.map_eq_none_iff, Prod.mk.injEq]
  constructor
  · rintro ⟨k, ⟨c, answer, rfl, rfl⟩, failures⟩
    exact ⟨answer, failures⟩
  · rintro ⟨answer, failures⟩
    exact ⟨i, ⟨d, answer, rfl, rfl⟩, failures⟩

theorem anyEntrySatisfies_iff : anyEntrySatisfies plan rate f tol = true ↔ ∃ j, (matchEntry plan rate j f tol).isSome = true := by
  simp only [anyEntrySatisfies, Option.isSome_iff_ne_none, ne_eq, findEntry_none, not_forall]

end Plan

/-- Settles O43: each branch of the derived status by 02 R31, the three conditions carried from whole numbers to integers. -/
theorem planEntryStatusDerived : Obligations.PlanEntryStatusDerived := by
  unfold Obligations.PlanEntryStatusDerived
  intro e rate r' n' num centre inBand
  have band : e.InBand rate ↔ inBand := by
    rw [PlanEntry.InBand, e.freqNum_cast, e.effR_cast]
  exact ⟨PlanEntry.derivedStatus_disabled,
    fun nonzero holds => PlanEntry.derivedStatus_valid nonzero (band.mpr holds),
    fun nonzero fails => PlanEntry.derivedStatus_outOfBand nonzero (mt band.mp fails),
    PlanEntry.matchTarget_none_of_not_valid⟩

/-- Settles O44: the match test as its two inequalities, and the query and the first search each as the least success in their order. -/
theorem matchQueryAndSearches : Obligations.MatchQueryAndSearches := by
  unfold Obligations.MatchQueryAndSearches
  constructor
  · intro e rate f tol d r' n' num
    rw [PlanEntry.satisfies_iff, e.freqNum_cast, e.effR_cast]
  · intro plan rate f tol i
    refine ⟨matchEntry_empty, fun e d written => ?query, fun d => findEntry_eq_some, ?any⟩
    case query => rw [matchEntry_written written, PlanEntry.matchTarget_eq_some]
    case any => simp only [anyEntrySatisfies_iff, matchEntry_isSome]

/-! ### A maintenance command at a RUNNING card (10 R171, R174) -/

theorem command_running {s : State} (running : s.restart.startUp = .running) (take : State → State × Response) :
    s.command take = (take s).1.setBuffers none (some (take s).2) := by
  rw [State.command, running]

theorem exec_setStation_running {s : State} (running : s.restart.startUp = .running) (rate : Nat) :
    exec (.setStation rate) s = .next ((s.takeSetStation rate).1.setBuffers none (some (s.takeSetStation rate).2)) :=
  congrArg Host.Outcome.next (command_running running fun s => s.takeSetStation rate)

/-! ### SET_STATION: what it judges again (02 R38, 07 R127, R138) -/

theorem PlanEntry.rejudge_eq (e : PlanEntry) (rate : Nat) :
    e.rejudge rate = if e.status = .disabled then e else { e with status := e.derivedStatus rate } := by
  cases status : e.status <;> simp [PlanEntry.rejudge, status]

theorem RefRec.judgeAfresh_eq (r : RefRec) (ref : Ref) (rate : Nat) : r.judgeAfresh ref rate =
    if r.enabled = false then { r with preDivider := none, state := .disabled, qualTimer := none, lastError := none }
    else if r.nominal % rate = 0 ∧ 1 ≤ r.nominal / rate ∧ r.nominal / rate ≤ 65535 then
      { r with preDivider := some (r.nominal / rate), state := if ref = .xo then .qualified else .absent, qualTimer := none, lastError := none }
    else { r with preDivider := none, state := .misfit, qualTimer := none, lastError := none } := by
  cases enabled : r.enabled with
  | false => simp [RefRec.judgeAfresh, enabled]
  | true =>
    by_cases fits : r.nominal % rate = 0 ∧ 1 ≤ r.nominal / rate ∧ r.nominal / rate ≤ 65535
    · simp [RefRec.judgeAfresh, fit, enabled, fits]
    · simp [RefRec.judgeAfresh, fit, enabled, fits]

theorem StationBlock.judgeAll_eq (b : StationBlock) (rate : Nat) : b.judgeAll rate =
    { b with
      rate := rate,
      refs := #v[(b.ref .xo).judgeAfresh .xo rate, (b.ref .refa).judgeAfresh .refa rate, (b.ref .refb).judgeAfresh .refb rate] } := rfl

/-! ### SET_STATION in the order of its checks (02 R37) -/

section SetStation

variable {s : State} {rate : Nat}

theorem takeSetStation_badValue (outside : rate < 1000 ∨ 10000000 < rate) : s.takeSetStation rate = (s, Response.bare .badValue) := by
  rw [State.takeSetStation, if_pos outside]

theorem takeSetStation_inUse (inRange : ¬ (rate < 1000 ∨ 10000000 < rate)) (running : s.runningLoops ≠ []) :
    s.takeSetStation rate = (s, { status := .inUse, payload := loopList s.runningLoops }) := by
  rw [State.takeSetStation, if_neg inRange, if_pos running]

theorem takeSetStation_ok (inRange : ¬ (rate < 1000 ∨ 10000000 < rate)) (stopped : s.runningLoops = []) :
    s.takeSetStation rate =
      (({ s with plan := mapCells (fun _ e => Option.map (fun e => PlanEntry.rejudge e rate) e) s.plan }).monitorsChange
        (s.station.judgeAll rate), Response.ok []) := by
  rw [State.takeSetStation, if_neg inRange, if_neg (not_not_intro stopped)]

end SetStation

/-- Settles O40: each check of 02 R37 in turn, then the plan and the references judged again, each by its rule's equation. -/
theorem stationRateSet : Obligations.StationRateSet := by
  unfold Obligations.StationRateSet
  intro s rate isRunning answered running plan afresh
  have taken : ∀ {t : State} {st payload}, s.takeSetStation rate = (t, { status := st, payload := payload }) →
      exec (.setStation rate) s = answered t st payload := by
    intro t st payload answer
    rw [exec_setStation_running isRunning, answer]
    rfl
  refine ⟨fun outside => ?badValue, fun low high loops => ?inUse, fun low high loops => ?ok⟩
  case badValue => exact taken (takeSetStation_badValue outside)
  case inUse => exact taken (takeSetStation_inUse (by omega) loops)
  case ok =>
    have judged : afresh = fun ref r => r.judgeAfresh ref rate := by
      funext ref r
      exact (r.judgeAfresh_eq ref rate).symm
    have planAgain : plan = mapCells (fun _ e => Option.map (fun e => PlanEntry.rejudge e rate) e) s.plan := by
      simp only [PlanEntry.rejudge_eq, plan]
    rw [judged, planAgain, ← StationBlock.judgeAll_eq]
    exact taken (takeSetStation_ok (by omega) loops)

end Sys2Proof.Machine

/-! The lock detector (03 R49 to R53, R56, R63): which loops complete a comparison window, what an AUTO loop makes of it by the thresholds of
Table 3-3, and what the rows LOOP_WINDOW and SETTLE_TIMER_EXPIRY do at a RUNNING card. -/

namespace Sys2Proof.Machine

/-! ### Thresholds (03 R49, Table 3-3) -/

section Thresholds

variable {e : WindowError} {m n : Nat}

theorem WindowError.within_iff : WindowError.within e n = true ↔ ∃ x : Int, e = .ppm x ∧ x.natAbs ≤ n := by
  cases e with
  | ppm x => simp [WindowError.within]
  | noActivity => simp [WindowError.within]

theorem WindowError.within_mono (le : m ≤ n) (inside : WindowError.within e m = true) : WindowError.within e n = true := by
  obtain ⟨x, rfl, bound⟩ := WindowError.within_iff.mp inside
  exact WindowError.within_iff.mpr ⟨x, rfl, bound.trans le⟩

end Thresholds

/-! ### The loops that complete a window (03 R49, R63) -/

theorem LoopRec.hasWindows_iff {l : LoopRec} {station : Option Ref} : l.hasWindows station = true ↔
    l.state = .acquiring ∨ l.state = .tracking ∨ l.state = .locked ∨ (l.state = .holdover ∧ station ≠ none) := by
  cases state : l.state <;> simp [LoopRec.hasWindows, state, Option.isSome_iff_ne_none]

theorem LoopRec.hasWindows_eq_false {l : LoopRec} {station : Option Ref}
    (out : l.state = .idle ∨ l.state = .waiting ∨ (l.state = .holdover ∧ station = none)) : l.hasWindows station = false := by
  rcases out with idle | waiting | ⟨holdover, rfl⟩
  · simp [LoopRec.hasWindows, idle]
  · simp [LoopRec.hasWindows, waiting]
  · simp [LoopRec.hasWindows, holdover]

/-! ### The judgement of an AUTO loop, state by state (03 R50 to R52, R63) -/

section Judge

variable {l : LoopRec} {limit : Nat} {e : WindowError}

theorem LoopRec.judge_acquiring_fine (acquiring : l.state = .acquiring) (fine : WindowError.within e 20 = true) :
    l.judge limit e = ({ l with state := .tracking, good := 1 }, []) := by
  have captured : WindowError.within e 300 = true := WindowError.within_mono (by decide) fine
  simp [LoopRec.judge, acquiring, captured, fine]

theorem LoopRec.judge_acquiring_capture (acquiring : l.state = .acquiring) (captured : WindowError.within e 300 = true)
    (beyond : WindowError.within e 20 = false) :
    l.judge limit e = ({ l with state := .tracking, good := 0 }, []) := by
  simp [LoopRec.judge, acquiring, captured, beyond]

theorem LoopRec.judge_acquiring_beyond (acquiring : l.state = .acquiring) (beyond : WindowError.within e 300 = false) :
    l.judge limit e = ({ l with good := 0 }, []) := by
  simp [LoopRec.judge, acquiring, beyond]

theorem LoopRec.judge_tracking_beyond (tracking : l.state = .tracking) (beyond : WindowError.within e 600 = false) :
    l.judge limit e = ({ l with state := .acquiring, good := 0 }, []) := by
  simp [LoopRec.judge, tracking, beyond]

theorem LoopRec.judge_tracking_coarse (tracking : l.state = .tracking) (coarse : WindowError.within e 600 = true)
    (beyond : WindowError.within e 20 = false) :
    l.judge limit e = ({ l with good := 0 }, []) := by
  simp [LoopRec.judge, tracking, coarse, beyond]

theorem LoopRec.judge_tracking_good (tracking : l.state = .tracking) (fine : WindowError.within e 20 = true) (fewer : l.good + 1 ≠ 4) :
    l.judge limit e = ({ l with good := l.good + 1 }, []) := by
  have coarse : WindowError.within e 600 = true := WindowError.within_mono (by decide) fine
  simp only [LoopRec.judge, tracking, coarse, fine, fewer, Bool.true_eq_false, if_false]

theorem LoopRec.judge_tracking_fourth (tracking : l.state = .tracking) (fine : WindowError.within e 20 = true) (fourth : l.good + 1 = 4) :
    l.judge limit e = ({ l with state := .locked, good := 4, timer := none }, [{ kind := .gained, state := .locked }]) := by
  have coarse : WindowError.within e 600 = true := WindowError.within_mono (by decide) fine
  simp only [LoopRec.judge, tracking, coarse, fine, fourth, Bool.true_eq_false, if_false, if_true]

theorem LoopRec.judge_locked_within (locked : l.state = .locked) (inside : WindowError.within e 60 = true) : l.judge limit e = (l, []) := by
  simp [LoopRec.judge, locked, inside]

theorem LoopRec.judge_locked_beyond (locked : l.state = .locked) (beyond : WindowError.within e 60 = false) :
    l.judge limit e = l.loseLock limit e := by
  simp [LoopRec.judge, locked, beyond]

theorem LoopRec.judge_holdover_within (holdover : l.state = .holdover) (inside : WindowError.within e 60 = true) :
    l.judge limit e = ({ l with state := .locked, good := 4 }, [{ kind := .holdoverEnded, state := .locked }]) := by
  simp [LoopRec.judge, holdover, inside]

theorem LoopRec.judge_holdover_beyond (holdover : l.state = .holdover) (beyond : WindowError.within e 60 = false) :
    l.judge limit e = l.loseLock limit e := by
  simp [LoopRec.judge, holdover, beyond]

/-! ### A window by the lock mode (03 R53) -/

theorem LoopRec.window_auto (auto : l.run.map Run.mode = some .auto) :
    l.window limit e = { l with lastError := some e }.judge limit e := by
  rw [LoopRec.window, auto]

theorem LoopRec.window_timed {t : Nat} (timed : l.run.map Run.mode = some (.timed t)) :
    l.window limit e = ({ l with lastError := some e }, []) := by
  rw [LoopRec.window, timed]

end Judge

/-! ### The two rows at a RUNNING card (03 R49, R54, R56, R58) -/

section Rows

variable {s : State} {k : LoopIx}

theorem exec_loopWindow_completed (running : s.restart.startUp = .running) (e : WindowError)
    (windows : (s.loop k).hasWindows s.station.station = true) :
    exec (.loopWindow k e) s = .next (s.setLoopWith k ((s.loop k).window s.loops.acquireLimit e)) :=
  congrArg Host.Outcome.next (if_pos ⟨beq_iff_eq.mpr running, windows⟩)

theorem exec_loopWindow_none (e : WindowError) (windowless : (s.loop k).hasWindows s.station.station = false) :
    exec (.loopWindow k e) s = .next s :=
  congrArg Host.Outcome.next (if_neg fun ⟨_, windows⟩ => Bool.eq_false_iff.mp windowless windows)

theorem loopTimerOut_iff (running : s.restart.startUp = .running) (kind : TimerKind) :
    s.loopTimerOut k kind = true ↔ s.maint.hold = false ∧ (s.loop k).timer = some { kind := kind, remaining := 0 } := by
  simp [State.loopTimerOut, State.isRunning, running]

theorem exec_settleTimerExpiry_due (running : s.restart.startUp = .running) (released : s.maint.hold = false)
    (out : (s.loop k).timer = some { kind := .settle, remaining := 0 }) (acquiring : (s.loop k).state = .acquiring) :
    exec (.settleTimerExpiry k) s =
      .next (s.setLoopWith k ({ s.loop k with state := .locked, timer := none }, [{ kind := .gained, state := .locked }])) :=
  congrArg Host.Outcome.next (if_pos ⟨(loopTimerOut_iff running _).mpr ⟨released, out⟩, acquiring⟩)

theorem exec_settleTimerExpiry_notDue (running : s.restart.startUp = .running)
    (notDue : s.maint.hold = true ∨ (s.loop k).timer ≠ some { kind := .settle, remaining := 0 } ∨ (s.loop k).state ≠ .acquiring) :
    exec (.settleTimerExpiry k) s = .next s := by
  refine congrArg Host.Outcome.next (if_neg ?_)
  rintro ⟨timerOut, acquiring⟩
  obtain ⟨released, out⟩ := (loopTimerOut_iff running _).mp timerOut
  simp [released, out, acquiring] at notDue

end Rows

/-- Settles O49: a window acts as `LoopRec.window` where one completes, its judgement is taken state by state, and a settle timer acts when due. -/
theorem lockDetectorWindows : Obligations.LockDetectorWindows := by
  unfold Obligations.LockDetectorWindows
  intro s k e running l put r within full window lost
  have inside : ∀ {n}, within n → WindowError.within e n = true := WindowError.within_iff.mpr
  have beyond : ∀ {n}, ¬ within n → WindowError.within e n = false := fun out => Bool.eq_false_iff.mpr (mt WindowError.within_iff.mp out)
  have completed : ∀ {x}, l.hasWindows s.station.station = true → l.window s.loops.acquireLimit e = x → window = put x.1 x.2 := by
    rintro x windows rfl
    exact exec_loopWindow_completed running e windows
  refine ⟨fun out => ?noWindow, fun t timed state => ?timed, fun auto => ?auto,
    exec_settleTimerExpiry_due running, exec_settleTimerExpiry_notDue running⟩
  case noWindow => exact exec_loopWindow_none e (LoopRec.hasWindows_eq_false out)
  case timed => exact completed (LoopRec.hasWindows_iff.mpr state) (LoopRec.window_timed timed)
  case auto =>
    have judged : ∀ {x}, l.hasWindows s.station.station = true → r.judge s.loops.acquireLimit e = x → window = put x.1 x.2 :=
      fun windows judgement => completed windows ((LoopRec.window_auto auto).trans judgement)
    have loses : window = put (r.loseLock s.loops.acquireLimit e).1 (r.loseLock s.loops.acquireLimit e).2 → lost := by
      intro loss
      refine ⟨fun coarse => ?_, fun far => ?_⟩
      · simpa only [LoopRec.loseLock, inside coarse, if_true] using loss
      · simpa only [LoopRec.loseLock, beyond far, Bool.false_eq_true, if_false] using loss
    refine ⟨fun acquiring => ?acquiring, fun tracking => ?tracking, fun locked => ?locked, fun holdover station => ?holdover⟩
    case acquiring =>
      have windows := LoopRec.hasWindows_iff (station := s.station.station).mpr (.inl acquiring)
      exact ⟨fun fine => judged windows (LoopRec.judge_acquiring_fine acquiring (inside fine)),
        fun captured out => judged windows (LoopRec.judge_acquiring_capture acquiring (inside captured) (beyond out)),
        fun out => judged windows (LoopRec.judge_acquiring_beyond acquiring (beyond out))⟩
    case tracking =>
      have windows := LoopRec.hasWindows_iff (station := s.station.station).mpr (.inr (.inl tracking))
      exact ⟨fun out => judged windows (LoopRec.judge_tracking_beyond tracking (beyond out)),
        fun coarse out => judged windows (LoopRec.judge_tracking_coarse tracking (inside coarse) (beyond out)),
        fun fine fewer => judged windows (LoopRec.judge_tracking_good tracking (inside fine) fewer),
        fun fine fourth => judged windows (LoopRec.judge_tracking_fourth tracking (inside fine) fourth)⟩
    case locked =>
      have windows := LoopRec.hasWindows_iff (station := s.station.station).mpr (.inr (.inr (.inl locked)))
      exact ⟨fun near => judged windows (LoopRec.judge_locked_within locked (inside near)),
        fun out => loses (judged windows (LoopRec.judge_locked_beyond locked (beyond out)))⟩
    case holdover =>
      have windows := LoopRec.hasWindows_iff.mpr (.inr (.inr (.inr ⟨holdover, station⟩)))
      exact ⟨fun near => judged windows (LoopRec.judge_holdover_within holdover (inside near)),
        fun out => loses (judged windows (LoopRec.judge_holdover_beyond holdover (beyond out)))⟩

end Sys2Proof.Machine

/-! RENEW (06 R123): what the grant engine answers at each check, in the order of the checks, and the state that a renewal leaves. -/

namespace Sys2Proof.Machine

/-! ### A slot request served at a ready link -/

/-- What its owner makes of a request at a ready link, with the owner's answer as the link's current one (09 R157). -/
theorem exec_slotRow_served {s t : State} {slot : SlotIx} {r : SlotReq} {a : Answer} (tag : Tag) (ready : s.linkReady slot)
    (served : s.serve slot r = (t, a)) : exec (slotRow slot tag r) s = .next (t.answer slot tag a) := by
  rw [exec_slotRow, slotRequest_ready s slot tag r ready, served]

/-! ### A handle's slot and a renewal's period -/

theorem ownHandle_own {slot : SlotIx} {h : Handle} (own : h.port.val / 2 = slot.val) : ownHandle slot (some h) = some h :=
  if_pos ((slotOf_iff h.port slot).mpr own)

theorem ownHandle_foreign {slot : SlotIx} {h : Handle} (foreign : h.port.val / 2 ≠ slot.val) : ownHandle slot (some h) = none :=
  if_neg (mt (slotOf_iff h.port slot).mp foreign)

/-- A period of 0 keeps the existing one, so that of the bounds of `periodInRange` only the upper one can refuse a RENEW (06 R123 step 2). -/
theorem renewPeriod_refused_iff (period : Nat) : (period ≠ 0 ∧ periodInRange period = false) ↔ 3600 < period := by
  simp only [periodInRange, Bool.and_eq_false_iff, decide_eq_false_iff_not]
  omega

/-! ### The checks of a RENEW, each with those before it passed (06 R123) -/

section Checks

variable {s : State} {slot : SlotIx} {h : Handle} {g : Grant} {period : Nat}

theorem serveRenew_held (handle : Option Handle) (hold : s.maint.hold = true) :
    s.serveRenew slot handle period = (s, Answer.bare .held) := by
  simp [State.serveRenew, hold]

theorem serveRenew_notOwn {handle : Option Handle} (hold : s.maint.hold = false) (notOwn : ownHandle slot handle = none) :
    s.serveRenew slot handle period = (s, Answer.bare .badRequest) := by
  simp [State.serveRenew, hold, notOwn]

theorem serveRenew_badPeriod (hold : s.maint.hold = false) (own : h.port.val / 2 = slot.val) (beyond : 3600 < period) :
    s.serveRenew slot (some h) period = (s, Answer.bare .badRequest) := by
  simp [State.serveRenew, hold, ownHandle_own own, renewPeriod_refused_iff, beyond]

theorem serveRenew_stale (hold : s.maint.hold = false) (own : h.port.val / 2 = slot.val) (inRange : period ≤ 3600)
    (stale : s.resolve h = none) : s.serveRenew slot (some h) period = (s, Answer.bare .stale) := by
  simp [State.serveRenew, hold, ownHandle_own own, renewPeriod_refused_iff, inRange, stale]

theorem serveRenew_notLeased (hold : s.maint.hold = false) (own : h.port.val / 2 = slot.val) (inRange : period ≤ 3600)
    (live : s.resolve h = some g) (unleased : g.lease = none) :
    s.serveRenew slot (some h) period = (s, Answer.bare .notLeased) := by
  simp [State.serveRenew, hold, ownHandle_own own, renewPeriod_refused_iff, inRange, live, unleased]

theorem serveRenew_renewed {l : Lease} (hold : s.maint.hold = false) (own : h.port.val / 2 = slot.val) (inRange : period ≤ 3600)
    (live : s.resolve h = some g) (leased : g.lease = some l) :
    s.serveRenew slot (some h) period =
      (s.setGrant h.port (some { g with lease := some (l.renewed period) }),
        Answer.ok (be16 (l.renewed period).period ++ be32 (l.renewed period).remaining)) := by
  have standing : s.grantAt h.port = some g := (resolve_some live).1
  simp [State.serveRenew, hold, ownHandle_own own, renewPeriod_refused_iff, inRange, live, leased, State.updGrant, standing]

end Checks

/-- Settles O23: each check of 06 R123 in turn, and past them all the lease renewed on the grant the handle names. -/
theorem renewRestartsLease : Obligations.RenewRestartsLease := by
  unfold Obligations.RenewRestartsLease
  intro s slot tag h period ready answered
  have refused : ∀ {handle st}, s.serveRenew slot handle period = (s, Answer.bare st) →
      exec (.renew slot tag handle period) s = .next (s.answer slot tag (Answer.bare st)) :=
    fun {handle _} => exec_slotRow_refused (r := .renew handle period) tag ready
  refine ⟨fun hold => ?held, fun hold => ⟨?absent, fun bad => ?badRequest, fun own inRange =>
    ⟨fun stale => ?stale, fun g live => ⟨fun unleased => ?notLeased, fun l leased => ?renewed⟩⟩⟩⟩
  case held => exact refused (serveRenew_held (some h) hold)
  case absent => exact refused (serveRenew_notOwn hold rfl)
  case badRequest =>
    by_cases own : h.port.val / 2 = slot.val
    · have beyond : 3600 < period := bad.resolve_left (absurd own)
      exact refused (serveRenew_badPeriod hold own beyond)
    · exact refused (serveRenew_notOwn hold (ownHandle_foreign own))
  case stale => exact refused (serveRenew_stale hold own inRange stale)
  case notLeased => exact refused (serveRenew_notLeased hold own inRange live unleased)
  case renewed =>
    exact exec_slotRow_served (r := .renew (some h) period) tag ready (serveRenew_renewed hold own inRange live leased)

end Sys2Proof.Machine

/-! ACK (08 R147): where a place and a kind find their notice, what the notice unit answers at each check, in the order of the checks, and the notice
that a matching acknowledgement leaves. -/

namespace Sys2Proof.Machine

/-! ### The notice that a place and a kind name, beside the unit in which it is cleared and keeps its sequence number (08 R147 steps 2 and 4) -/

section Locate

variable (u : NoticeUnit) (slot : SlotIx)

theorem locate_lineKind (line : Line) (k : PortKind) :
    u.locate slot (if line = .a then .lineA else .lineB) (.port k) =
      some (rd (rd u.ports (portOf slot line)).kinds k.index,
        { u with ports := wr u.ports (portOf slot line) { rd u.ports (portOf slot line) with
            kinds := wr (rd u.ports (portOf slot line)).kinds k.index
              { pending := false, seq := (rd (rd u.ports (portOf slot line)).kinds k.index).seq } } }) := by
  cases line <;> rfl

theorem locate_restarted :
    u.locate slot .slot (.slot .restarted) =
      some ((rd u.slots slot).restarted,
        { u with slots := wr u.slots slot { rd u.slots slot with
            restarted := { pending := false, seq := (rd u.slots slot).restarted.seq } } }) := rfl

theorem locate_continued :
    u.locate slot .slot (.slot .continued) =
      some ((rd u.slots slot).continued,
        { u with slots := wr u.slots slot { rd u.slots slot with
            continued := { pending := false, seq := (rd u.slots slot).continued.seq } } }) := rfl

end Locate

/-! ### The checks of an ACK, each with those before it passed (08 R147) -/

section Checks

variable {s : State} {slot : SlotIx} {place : Place} {kind : NoticeKind} {seq : Nat} {n : Notice} {cleared : NoticeUnit}

theorem serveAck_held (hold : s.maint.hold = true) (barred : s.maint.allowAcks = false) :
    s.serveAck slot place kind seq = (s, Answer.bare .held) :=
  if_pos ⟨hold, barred⟩

/-- No hold, or one entered with allow_acks, lets the checks go on (08 R147 step 1). -/
theorem not_barred (allowed : s.maint.hold = false ∨ s.maint.allowAcks = true) :
    ¬ (s.maint.hold = true ∧ s.maint.allowAcks = false) := by
  rintro ⟨hold, barred⟩
  simp [hold, barred] at allowed

theorem serveAck_misplaced (allowed : s.maint.hold = false ∨ s.maint.allowAcks = true)
    (misplaced : s.notices.locate slot place kind = none) :
    s.serveAck slot place kind seq = (s, Answer.bare .badRequest) := by
  simp only [State.serveAck, if_neg (not_barred allowed), misplaced]

theorem serveAck_located (allowed : s.maint.hold = false ∨ s.maint.allowAcks = true) (inRange : seq ≤ 15)
    (located : s.notices.locate slot place kind = some (n, cleared)) :
    s.serveAck slot place kind seq =
      if n.pending = false then (s, Answer.ok [])
      else if n.seq.val = seq then ({ s with notices := cleared }, Answer.ok [])
      else (s, { status := .staleNotice, payload := [toByte n.seq.val] }) := by
  simp only [State.serveAck, if_neg (not_barred allowed), located, if_neg (Nat.not_lt.mpr inRange)]

/-- A sequence number above 15 is refused whether or not the place holds the kind: both are checks of 08 R147 step 2. -/
theorem serveAck_seqBeyond (allowed : s.maint.hold = false ∨ s.maint.allowAcks = true) (beyond : 15 < seq) :
    s.serveAck slot place kind seq = (s, Answer.bare .badRequest) := by
  cases found : s.notices.locate slot place kind with
  | none => exact serveAck_misplaced allowed found
  | some located => simp only [State.serveAck, if_neg (not_barred allowed), found, if_pos beyond]

/-- Steps 3 to 5 of 08 R147 at a ready link, for the notice that the place and the kind name. -/
theorem exec_ack_located (tag : Tag) (ready : s.linkReady slot) (allowed : s.maint.hold = false ∨ s.maint.allowAcks = true)
    (inRange : seq ≤ 15) (located : s.notices.locate slot place kind = some (n, cleared)) :
    (n.pending = false →
      exec (.ack slot tag place kind seq) s = .next (s.answer slot tag { status := .ok, payload := [] })) ∧
    (n.pending = true → n.seq.val ≠ seq →
      exec (.ack slot tag place kind seq) s = .next (s.answer slot tag { status := .staleNotice, payload := [toByte n.seq.val] })) ∧
    (n.pending = true → n.seq.val = seq →
      exec (.ack slot tag place kind seq) s =
        .next (State.answer { s with notices := cleared } slot tag { status := .ok, payload := [] })) := by
  have served : ∀ {t a}, s.serveAck slot place kind seq = (t, a) → exec (.ack slot tag place kind seq) s = .next (t.answer slot tag a) :=
    exec_slotRow_served (r := .ack place kind seq) tag ready
  have checked := serveAck_located allowed inRange located
  refine ⟨fun settled => ?notPending, fun pending differs => ?stale, fun pending matching => ?cleared⟩
  case notPending => exact served (checked.trans (if_pos settled))
  case stale => exact served (by simp [checked, pending, differs])
  case cleared => exact served (by simp [checked, pending, matching, Answer.ok])

end Checks

/-- Settles O25: each check of 08 R147 in turn, and past them steps 3 to 5 at the notice of a line's kind, of RESTARTED and of CONTINUED. -/
theorem ackClears : Obligations.AckClears := by
  unfold Obligations.AckClears
  intro s slot tag seq ready answered
  have refused : ∀ {place kind st}, s.serveAck slot place kind seq = (s, Answer.bare st) → answered place kind st :=
    fun {place kind _} => exec_slotRow_refused (r := .ack place kind seq) tag ready
  refine ⟨fun hold barred place kind => ?held, fun allowed =>
    ⟨fun k => ?portKindAtSlot, fun k => ?slotKindAtLine, fun beyond place kind => ?seqBeyond, fun inRange => ?located⟩⟩
  case held => exact refused (serveAck_held hold barred)
  case portKindAtSlot => exact refused (serveAck_misplaced allowed rfl)
  case slotKindAtLine => exact ⟨refused (serveAck_misplaced allowed rfl), refused (serveAck_misplaced allowed rfl)⟩
  case seqBeyond => exact refused (serveAck_seqBeyond allowed beyond)
  case located =>
    exact ⟨fun line k => exec_ack_located tag ready allowed inRange (locate_lineKind s.notices slot line k),
      exec_ack_located tag ready allowed inRange (locate_restarted s.notices slot),
      exec_ack_located tag ready allowed inRange (locate_continued s.notices slot)⟩

end Sys2Proof.Machine

/-! What an action of the card can do: every command is a path of a few kinds of change, each with the condition under which the rules allow it.
The invariants of chapters 3, 4, 7, 8, 10 and 11 are then one short case analysis each. -/

namespace Sys2Proof.Machine

/-! ### The kinds of change -/

/-- The two held restart requests set (11 R186, R187). -/
def State.setHeld (s : State) (panel chassis : Bool) : State :=
  { s with restart := { s.restart with panelHeld := panel, chassisHeld := chassis } }

/-- The changes of which every command of the card is made, each where a rule allows it. -/
inductive CardStep : State → State → Prop where
  | link (s : State) (slot : SlotIx) (f : LinkRec → LinkRec) (listening : (f (s.link slot)).listening = (s.link slot).listening)
      (mute : s.link slot = LinkRec.mute → f (s.link slot) = LinkRec.mute) : CardStep s (s.updLink slot f)
  | level (s : State) (slot : SlotIx) (level : Bool) (unheeded : s.isRunning = false ∨ rd s.present slot = level) :
      CardStep s (s.setPresent slot level)
  | inserted (s : State) (slot : SlotIx) (running : s.isRunning = true) :
      CardStep s ((s.setPresent slot true).updLink slot (fun l => { l with listening := true, receiver := .hunting }))
  | removed (s : State) (slot : SlotIx) (running : s.isRunning = true) :
      CardStep s ((s.setPresent slot false).updLink slot (fun _ => LinkRec.mute))
  | engine (s t : State) (reached : s.isRunning = true ∨ ∃ slot, (s.link slot).listening = true) (path : EnginePath false s t) : CardStep s t
  | failure (s : State) (k : LoopIx) (cause : FailCause) (running : s.isRunning = true) : CardStep s (s.failLoop k cause)
  | loop (s : State) (k : LoopIx) (l : LoopRec) (events : Vector (List LockEvent) 6) (running : s.isRunning = true)
      (sound : (s.loop k).Sound s.station.station → l.Sound s.station.station)
      (output : l.state = (s.loop k).state ∨ (l.state ≠ .waiting ∧ l.state ≠ .idle)) :
      CardStep s { s with loops := { s.loops with loops := wr s.loops.loops k l, events := events } }
  | ports (s : State) (u : SwitchUnit) (running : s.isRunning = true)
      (sound : s.PortsSound → ∀ p, (rd u.ports p).Sound s.loops.loops s.station.station) : CardStep s { s with switch := u }
  | monitors (s : State) (b : StationBlock) (running : s.isRunning = true) (station : b.station = s.station.station)
      (refs : s.station.Sound → ∀ r, (b.ref r).Sound r) (priority : b.priority = s.station.priority) : CardStep s (s.monitorsChange b)
  | restored (s : State) (c : Ref) (running : s.isRunning = true) (candidate : s.station.restore.map Restore.candidate = some c) :
      CardStep s ((s.changeStation (some c)).evaluateRestore).fillLatch
  | selector (s : State) (b : StationBlock) (running : s.isRunning = true) (station : b.station = s.station.station)
      (sound : s.station.Sound → b.Sound) : CardStep s { s with station := b }
  | plan (s : State) (plan : Vector (Option PlanEntry) 32) : CardStep s { s with plan := plan }
  | limits (s : State) (acquire holdover : Nat) :
      CardStep s { s with loops := { s.loops with acquireLimit := acquire, holdoverLimit := holdover } }
  | buffers (s : State) (waiting : Option (List Byte)) (response : Option Response)
      (written : ∀ bytes, waiting = some bytes → s.isRunning = true ∧ response = none ∧ (parseCommand bytes).isSome = true) :
      CardStep s (s.setBuffers waiting response)
  | acknowledge (s : State) (c : Cause) (running : s.isRunning = true) :
      CardStep s { s with maint := { s.maint with attention := s.maint.attention.acknowledge c } }
  | hold (s : State) (hold allowAcks : Bool) (running : s.isRunning = true) :
      CardStep s { s with maint := { s.maint with hold := hold, allowAcks := allowAcks } }
  | causes (s : State) (causes : Causes) : CardStep s { s with restart := { s.restart with causes := causes } }
  | continuity (s : State) (on : Bool) : CardStep s { s with restart := { s.restart with continuity := on } }
  | settle (s : State) (jumpers : Jumpers) (causes : Causes) : CardStep s (s.beginSettle jumpers causes)
  | trip (s : State) : CardStep s s.trip
  | settled (s : State) (settling : s.restart.startUp = .settling) : CardStep s s.endSettle
  | restart (s : State) (kept : Option Response) : CardStep s (s.enterRestart kept)
  | waits (s : State) (restarting : s.restart.startUp = .restarting) (held : s.restart.restartHeld = true) :
      CardStep s { s with restart := { s.restart with restartTimer := none } }
  | held (s : State) (panel chassis : Bool) (running : s.isRunning = true → s.restart.restartHeld = false → (panel || chassis) = false)
      (waiting : s.restart.startUp = .restarting → s.restart.restartTimer = none → (panel || chassis) = true) :
      CardStep s (s.setHeld panel chassis)
  | reopened (s : State) (panel chassis : Bool) (restarting : s.restart.startUp = .restarting) (released : (panel || chassis) = false) :
      CardStep s (s.setHeld panel chassis).endRestart
  | continued (s : State) (running : s.isRunning = true) : CardStep s s.continueThrough

/-- A path of changes. -/
abbrev CardPath : State → State → Prop := Relation.ReflTransGen CardStep

theorem CardPath.refl (s : State) : CardPath s s := Relation.ReflTransGen.refl

theorem CardPath.trans {s t u : State} (h : CardPath s t) (k : CardPath t u) : CardPath s u := Relation.ReflTransGen.trans h k

theorem CardStep.path {s t : State} (h : CardStep s t) : CardPath s t := Relation.ReflTransGen.single h

/-- A property that every change keeps is kept by a path. -/
theorem CardPath.keeps {P : State → Prop} (kept : ∀ s t, CardStep s t → P s → P t) {s t : State} (path : CardPath s t) (holds : P s) : P t := by
  induction path with
  | refl => exact holds
  | tail _ last ih => exact kept _ _ last ih

/-- Where a condition lets a command change nothing, the path may be one that the condition's failure gives. -/
theorem CardPath.ite {s t : State} {c : Prop} [Decidable c] (h : c → CardPath s t) : CardPath s (if c then t else s) := by
  split
  · exact h ‹_›
  · exact CardPath.refl s

theorem isRunning_iff {s : State} : s.isRunning = true ↔ s.restart.startUp = .running := beq_iff_eq

/-! ### The links (09 R156 to R158, R167) -/

/-- A change of a link that listens and goes on listening. -/
theorem updLink_path {s : State} {slot : SlotIx} (f : LinkRec → LinkRec) (before : (s.link slot).listening = true)
    (after : (f (s.link slot)).listening = true) : CardPath s (s.updLink slot f) := by
  refine (CardStep.link s slot f (after.trans before.symm) fun mute => ?_).path
  rw [mute] at before
  cases before

theorem hunt_path (s : State) (slot : SlotIx) : CardPath s (s.hunt slot) :=
  (CardStep.link s slot _ rfl fun mute => by rw [mute]; rfl).path

theorem answer_path {s : State} {slot : SlotIx} (tag : Tag) (a : Answer) (listening : (s.link slot).listening = true) :
    CardPath s (s.answer slot tag a) := updLink_path _ listening listening

theorem holdBusy_path {s : State} {slot : SlotIx} (tag : Tag) (listening : (s.link slot).listening = true) :
    CardPath s (s.holdBusy slot tag) := updLink_path _ listening listening

/-- A request taken by its owner at a link that listens, and answered. -/
theorem takeRequest_path {s : State} {slot : SlotIx} (tag : Tag) (r : SlotReq) (listening : (s.link slot).listening = true) :
    CardPath s ((s.serve slot r).1.answer slot tag (s.serve slot r).2) := by
  have links : (s.serve slot r).1.links = s.links := (serve_path (w := false) s slot r).frame.links
  refine (CardStep.engine s _ (.inr ⟨slot, listening⟩) (serve_path s slot r)).path.trans (answer_path tag _ ?_)
  rwa [State.link, links]

theorem frameArrives_path {s : State} {slot : SlotIx} (f : RawFrame) (listening : (s.link slot).listening = true) :
    CardPath s (s.frameArrives slot f) := by
  rcases frameArrives_cases s slot f with same | ⟨tag, busy⟩ | ⟨tag, a, answered⟩ | ⟨tag, r, taken⟩
  · rw [same]
  · rw [busy]; exact holdBusy_path tag listening
  · rw [answered]; exact answer_path tag a listening
  · rw [taken]; exact takeRequest_path tag r listening

theorem hunt_listening (s : State) (slot : SlotIx) : ((s.hunt slot).link slot).listening = (s.link slot).listening := by
  rw [State.hunt, updLink_link, if_pos rfl]

theorem canReceive_listening {s : State} {slot : SlotIx} {f : RawFrame} (receives : s.canReceive slot f = true) :
    (s.link slot).listening = true := (Bool.and_eq_true_iff.mp receives).1

theorem huntThenFrame_path {s : State} {slot : SlotIx} (f : RawFrame) (listening : (s.link slot).listening = true) :
    CardPath s ((s.hunt slot).frameArrives slot f) :=
  (hunt_path s slot).trans (frameArrives_path f ((hunt_listening s slot).trans listening))

theorem slotRequest_path (s : State) (slot : SlotIx) (tag : Tag) (r : SlotReq) : CardPath s (s.slotRequest slot tag r) := by
  refine CardPath.ite fun receives => (hunt_path s slot).trans ?_
  have listening := (hunt_listening s slot).trans (canReceive_listening receives)
  rcases requestArrives_cases (s.hunt slot) slot tag r with busy | taken
  · rw [busy]; exact holdBusy_path tag listening
  · rw [taken]; exact takeRequest_path tag r listening

theorem answerSent_path (s : State) (slot : SlotIx) : CardPath s (s.updLink slot LinkRec.answerSent) := by
  refine (CardStep.link s slot _ ?_ fun mute => by rw [mute]; rfl).path
  unfold LinkRec.answerSent
  split <;> rfl

theorem byteReceived_path {s : State} {slot : SlotIx} (got : List Byte) (byte : Byte) (listening : (s.link slot).listening = true) :
    CardPath s (s.byteReceived slot got byte) := by
  unfold State.byteReceived
  split
  · exact huntThenFrame_path _ listening
  · exact updLink_path _ listening listening

theorem requestByteReceived_path (s : State) (slot : SlotIx) (byte : Byte) (framingError : Bool) :
    ∃ t, execRequestByteReceived slot byte framingError s = .next t ∧ CardPath s t := by
  refine ⟨_, rfl, CardPath.ite fun listening => ?_⟩
  split
  · exact CardPath.ite fun _ => updLink_path _ listening listening
  · split
    · exact hunt_path s slot
    · exact byteReceived_path _ byte listening

theorem presentAsserted_path (s : State) (slot : SlotIx) : ∃ t, execPresentAsserted slot s = .next t ∧ CardPath s t := by
  refine ⟨_, rfl, ?_⟩
  split
  · rename_i heeded
    exact (CardStep.inserted s slot heeded.1).path
  · rename_i unheeded
    refine (CardStep.level s slot true (or_iff_not_imp_left.mpr fun running => ?_)).path
    exact Bool.eq_true_of_not_eq_false fun absent => unheeded ⟨Bool.eq_true_of_not_eq_false running, absent⟩

theorem slotLoss_path (s : State) (slot : SlotIx) : ∃ t, execSlotLoss slot s = .next t ∧ CardPath s t := by
  refine ⟨_, rfl, ?_⟩
  split
  · rename_i running
    let lost : State := (s.setPresent slot false).updLink slot (fun _ => LinkRec.mute)
    have retired : EnginePath false lost ((lost.retireSlot slot .slotLoss).withNotices fun u => u.clearSlot slot) :=
      (retireSlot_path lost slot .slotLoss).trans (withNotices_path _ _)
    exact (CardStep.removed s slot running).path.trans (CardStep.engine lost _ (.inl running) retired).path
  · rename_i closed
    exact (CardStep.level s slot false (.inl (Bool.eq_false_iff.mpr closed))).path

/-! ### The loops and the ports (03 R49 to R57, 04 R75 to R81) -/

theorem loopWindow_path (s : State) (k : LoopIx) (e : WindowError) : ∃ t, execLoopWindow k e s = .next t ∧ CardPath s t := by
  refine ⟨_, rfl, CardPath.ite ?_⟩
  rintro ⟨running, windows⟩
  refine (CardStep.loop s k _ _ running (LoopRec.window_sound _ _ _ e windows) ?_).path
  unfold LoopRec.window LoopRec.judge LoopRec.loseLock
  rcases LoopRec.hasWindows_iff.mp windows with h | h | h | ⟨h, -⟩ <;> simp only [h] <;> (repeat' split) <;> simp_all

theorem settledLoop_sound {l : LoopRec} {station : Option Ref} (acquiring : l.state = .acquiring) (timed : l.timer.map LoopTimer.kind = some .settle)
    (sound : l.Sound station) : ({ l with state := .locked, timer := none } : LoopRec).Sound station where
  entry := by rw [sound.entry, LoopRec.running, acquiring]; rfl
  quarantine := fun failed => absurd ((sound.quarantine failed).symm.trans acquiring) (by decide)
  atRest := by intro h; cases h
  waiting := by intro h; cases h
  referenced := fun _ => sound.referenced (.inl acquiring)
  lockTimer := by rintro (h | h | h) <;> cases h
  trackingAuto := by intro h; cases h
  locked := fun _ => rfl
  holdover := by intro h; cases h
  countAtStart := by rintro (h | h | h) <;> cases h
  countTracking := by intro h; cases h
  countLocked := fun _ => by
    have kind := timed.symm.trans (sound.lockTimer (.inr (.inl acquiring)))
    have good : l.good = 0 := sound.countAtStart (.inr (.inr acquiring))
    split at kind <;> simp_all

theorem loopTimerOut_timer {s : State} {k : LoopIx} {kind : TimerKind} (out : s.loopTimerOut k kind = true) :
    s.isRunning = true ∧ (s.loop k).timer = some { kind := kind, remaining := 0 } := by
  simp only [State.loopTimerOut, Bool.and_eq_true, beq_iff_eq] at out
  exact ⟨out.1.1, out.2⟩

theorem settleTimerExpiry_path (s : State) (k : LoopIx) : ∃ t, execSettleTimerExpiry k s = .next t ∧ CardPath s t := by
  refine ⟨_, rfl, CardPath.ite ?_⟩
  rintro ⟨out, acquiring⟩
  obtain ⟨running, timer⟩ := loopTimerOut_timer out
  exact (CardStep.loop s k _ _ running (settledLoop_sound acquiring (by rw [timer]; rfl)) (.inr (by simp))).path

theorem failLoop_path {s : State} (k : LoopIx) (cause : FailCause) {kind : TimerKind} (out : s.loopTimerOut k kind = true) :
    CardPath s (s.failLoop k cause) := (CardStep.failure s k cause (loopTimerOut_timer out).1).path

theorem takeNextLock_cardPath (s : State) (k : LoopIx) (kind : LockEventKind) :
    CardPath s (if s.isRunning then s.takeNextLock k kind else s) :=
  CardPath.ite fun running => (CardStep.engine s _ (.inl running) (takeNextLock_path s k kind)).path

/-- A change of one port keeps every port sound when it keeps that one sound. -/
theorem atPort_sound {s : State} {p : PortIx} {f : PortRec → PortStep} (sound : s.PortsSound)
    (kept : (f (rd s.switch.ports p)).1.Sound s.loops.loops s.station.station) (q : PortIx) :
    (rd (s.switch.atPort p f).ports q).Sound s.loops.loops s.station.station := by
  simp only [SwitchUnit.atPort, rd_wr]
  split
  · exact kept
  · exact sound q

theorem stasisBegins_path (s : State) (p : PortIx) : ∃ t, execStasisBegins p s = .next t ∧ CardPath s t := by
  refine ⟨_, rfl, CardPath.ite ?_⟩
  rintro ⟨running, -⟩
  exact (CardStep.ports s _ running fun sound => atPort_sound sound (PortRec.beginStasis_sound _ (sound p))).path

theorem portSwitchCompletes_path (s : State) (p : PortIx) : ∃ t, execPortSwitchCompletes p s = .next t ∧ CardPath s t := by
  refine ⟨_, rfl, CardPath.ite ?_⟩
  rintro ⟨running, -⟩
  exact (CardStep.ports s (s.switch.lowPhase p) running fun sound => atPort_sound sound (PortRec.lowPhase_sound _ _ (sound p))).path

theorem groupRollover_path (s : State) (g : GroupIx) : ∃ t, execGroupRollover g s = .next t ∧ CardPath s t := by
  refine ⟨_, rfl, ?_⟩
  split
  · refine CardPath.ite ?_
    rintro ⟨running, -⟩
    refine (CardStep.ports s _ running fun sound p => ?_).path
    rw [(rollover_port s.switch g _ p).1]
    exact PortRec.rollover_sound _ _ _ _ (sound p)
  · exact CardPath.refl s

theorem switchCompletion_path (s : State) (p : PortIx) : ∃ t, execSwitchCompletion p s = .next t ∧ CardPath s t := by
  refine ⟨_, rfl, ?_⟩
  split
  · exact CardPath.ite fun running =>
      (CardStep.engine s _ (.inl running) ((setReports_path s p _).trans (takeCompletion_path _ p _))).path
  · exact CardPath.refl s
  · exact CardPath.refl s

theorem switchVoid_path (s : State) (p : PortIx) : ∃ t, execSwitchVoid p s = .next t ∧ CardPath s t := by
  refine ⟨_, rfl, ?_⟩
  split
  · exact CardPath.ite fun running => (CardStep.engine s _ (.inl running) ((setReports_path s p _).trans (takeVoid_path _ p))).path
  · exact CardPath.refl s
  · exact CardPath.refl s

theorem leaseExpiry_path (s : State) (p : PortIx) : ∃ t, execLeaseExpiry p s = .next t ∧ CardPath s t := by
  refine ⟨_, rfl, CardPath.ite fun out => (CardStep.engine s _ (.inl ?_) (retire_path s p _)).path⟩
  simp only [State.leaseOut, Bool.and_eq_true] at out
  exact out.1.1

/-! ### The references and the selector (07 R128 to R138) -/

/-- One reference record changed by a sound one, and the change taken by the selector. -/
theorem changeRef_path {s : State} (running : s.isRunning = true) (r : Ref) (x : RefRec) (sound : s.station.Sound → x.Sound r) :
    CardPath s (s.changeRef r x) := by
  refine (CardStep.monitors s (s.station.setRef r x) running rfl (fun station q => ?_) rfl).path
  rw [StationBlock.ref_setRef]
  split
  · rename_i same; subst same; exact sound station
  · exact station.refs q

theorem RefRec.qualify_sound {r : RefRec} {ref : Ref} (qualifying : r.state = .qualifying) (sound : r.Sound ref) : r.qualify.Sound ref where
  preDivider := by rw [RefRec.qualify, sound.preDivider, qualifying]; rfl
  qualTimer := rfl
  xo := fun _ => .inr (.inr rfl)

theorem referenceWindow_path (s : State) (ref : Ref) (e : WindowError) : ∃ t, execReferenceWindow ref e s = .next t ∧ CardPath s t := by
  refine ⟨_, rfl, CardPath.ite ?_⟩
  rintro ⟨running, notXo, windows⟩
  exact changeRef_path running ref _ fun sound => RefRec.window_sound _ ref _ e windows notXo (sound.refs ref)

theorem qualificationTimerExpiry_path (s : State) (ref : Ref) :
    ∃ t, execQualificationTimerExpiry ref s = .next t ∧ CardPath s t := by
  refine ⟨_, rfl, CardPath.ite fun out => ?_⟩
  simp only [State.qualificationOut, Bool.and_eq_true, beq_iff_eq] at out
  obtain ⟨⟨⟨running, -⟩, qualifying⟩, -⟩ := out
  exact changeRef_path running ref _ fun sound => RefRec.qualify_sound qualifying (sound.refs ref)

theorem restoreOut_some {s : State} {c : Ref} (out : s.restoreOut = some c) :
    s.isRunning = true ∧ s.station.restore.map Restore.candidate = some c := by
  unfold State.restoreOut at out
  split at out
  · rename_i r standing
    split at out
    · rename_i due
      exact ⟨due.1, by rw [standing]; exact out⟩
    · cases out
  · cases out

theorem restoreTimerExpiry_path (s : State) : ∃ t, execRestoreTimerExpiry s = .next t ∧ CardPath s t := by
  refine ⟨_, rfl, ?_⟩
  split
  · rename_i c out
    obtain ⟨running, candidate⟩ := restoreOut_some out
    exact (CardStep.restored s c running candidate).path
  · exact CardPath.refl s

/-! ### The maintenance commands (10 R171 to R182) -/

/-- A command written and taken is the owner's action, then the response. -/
theorem command_path (s : State) (take : State → State × Response) (taken : s.isRunning = true → CardPath s (take s).1) :
    CardPath s (s.command take) := by
  have placed : ∀ (t : State) response, CardPath t (t.setBuffers none response) := fun t response =>
    (CardStep.buffers t none response (by simp)).path
  unfold State.command
  split
  · rename_i running
    exact (taken (isRunning_iff.mpr running)).trans (placed _ _)
  · exact placed s none
  · exact placed s none
  · exact CardPath.refl s

/-- A command that only reads. -/
theorem command_reads (s : State) (take : State → State × Response) (reads : (take s).1 = s) : CardPath s (s.command take) :=
  command_path s take fun _ => by rw [reads]

theorem readCell_state {n : Nat} (s : State) (k : Option (Fin n)) (payload : Fin n → List Byte) : (s.readCell k payload).1 = s := by
  unfold State.readCell
  split <;> rfl

/-- The plan and every reference judged at another rate. -/
theorem judgeAgain_path (s : State) (rate : Nat) (plan : Vector (Option PlanEntry) 32) (running : s.isRunning = true) :
    CardPath s (State.monitorsChange { s with plan := plan } (s.station.judgeAll rate)) := by
  refine (CardStep.plan s plan).path.trans (CardStep.monitors { s with plan := plan } (s.station.judgeAll rate) running rfl (fun _ r => ?_) rfl).path
  rw [StationBlock.judgeAll_ref]
  exact RefRec.judgeAfresh_sound _ r rate

theorem takeSetStation_path (s : State) (rate : Nat) (running : s.isRunning = true) : CardPath s (s.takeSetStation rate).1 := by
  unfold State.takeSetStation
  split
  · exact CardPath.refl s
  · split
    · exact CardPath.refl s
    · exact judgeAgain_path s rate _ running

theorem takeSetReference_path (s : State) (ref : Ref) (nominal : Nat) (enabled : Bool) (running : s.isRunning = true) :
    CardPath s (s.takeSetReference ref nominal enabled).1 := by
  unfold State.takeSetReference
  dsimp only
  split
  · exact CardPath.refl s
  · split
    · exact CardPath.refl s
    · split
      · exact CardPath.refl s
      · exact changeRef_path running ref _ fun _ => RefRec.judgeAfresh_sound _ ref _

/-- Three references that differ are all there are. -/
theorem Ref.mem_of_distinct {a b c : Ref} (ab : a ≠ b) (bc : b ≠ c) (ac : a ≠ c) (r : Ref) : r ∈ [a, b, c] := by
  cases a <;> cases b <;> cases c <;> cases r <;> simp at ab bc ac ⊢

theorem takeSetPriority_path (s : State) (a b c : Ref) (mode : SelMode) (delay : Nat) (running : s.isRunning = true) :
    CardPath s (s.takeSetPriority a b c mode delay).1 := by
  unfold State.takeSetPriority
  split
  · exact CardPath.refl s
  · rename_i accepted
    have named : ∀ r, r ∈ [a, b, c] := Ref.mem_of_distinct (by tauto) (by tauto) (by tauto)
    let set : StationBlock := { s.station with priority := [a, b, c], mode := mode, restoreDelay := delay }
    exact (CardStep.selector s set.evaluate running rfl fun sound => set.evaluate_sound sound.chosen sound.none sound.refs named).path

theorem takeSetQualify_path (s : State) (period : QualPeriod) (running : s.isRunning = true) : CardPath s (s.takeSetQualify period).1 :=
  (CardStep.selector s { s.station with period := period } running rfl fun sound => ⟨sound.chosen, sound.none, sound.refs, sound.priority, sound.candidate⟩).path

theorem takeWritePlan_path (s : State) (a : PlanArgs) : CardPath s (s.takeWritePlan a).1 := by
  unfold State.takeWritePlan
  split
  · exact CardPath.refl s
  · split
    · exact CardPath.refl s
    · split
      · exact CardPath.refl s
      · exact (CardStep.plan s _).path

theorem takeErasePlan_path (s : State) (entry : Nat) : CardPath s (s.takeErasePlan entry).1 := by
  unfold State.takeErasePlan
  split
  · exact CardPath.refl s
  · split
    · exact CardPath.refl s
    · exact (CardStep.plan s _).path

theorem takeSetLimits_path (s : State) (acquire holdover : Nat) : CardPath s (s.takeSetLimits acquire holdover).1 := by
  unfold State.takeSetLimits
  split
  · exact CardPath.refl s
  · exact (CardStep.limits s _ _).path

theorem takeReadGrant_state (s : State) (port : Option Nat) : (s.takeReadGrant port).1 = s := by
  cases port with
  | none => rfl
  | some p => exact readCell_state s _ _

theorem takeReadCause_path (s : State) : CardPath s s.takeReadCause.1 := by
  unfold State.takeReadCause
  dsimp only
  split
  · exact CardPath.refl s
  · exact (CardStep.causes s _).path

theorem takeForceRetire_path (s : State) (handle : Option Handle) (running : s.isRunning = true) : CardPath s (s.takeForceRetire handle).1 := by
  unfold State.takeForceRetire
  split
  · exact CardPath.refl s
  · split
    · exact CardPath.refl s
    · exact (CardStep.engine s _ (.inl running) (retire_path s _ _)).path

/-- A loop released from quarantine is as sound as it was (03 R68). -/
theorem LoopRec.cleared_sound {l : LoopRec} {station : Option Ref} (sound : l.Sound station) :
    ({ l with failed := none } : LoopRec).Sound station where
  entry := sound.entry
  quarantine := by intro failed; cases failed
  atRest := sound.atRest
  waiting := sound.waiting
  referenced := sound.referenced
  lockTimer := sound.lockTimer
  trackingAuto := sound.trackingAuto
  locked := sound.locked
  holdover := sound.holdover
  countAtStart := sound.countAtStart
  countTracking := sound.countTracking
  countLocked := sound.countLocked

theorem takeClearLoop_path (s : State) (loop : Nat) (running : s.isRunning = true) : CardPath s (s.takeClearLoop loop).1 := by
  unfold State.takeClearLoop
  split
  · exact CardPath.refl s
  · rename_i k _
    split
    · exact CardPath.refl s
    · exact (CardStep.loop s k _ s.loops.events running LoopRec.cleared_sound (.inl rfl)).path

/-! ### Start-up and restart (11 R184 to R189) -/

theorem restartRequest_path (s : State) (r : RestartCause) : CardPath s (s.restartRequest r) := by
  unfold State.restartRequest
  split
  · exact (CardStep.causes s _).path.trans (CardStep.restart _ _).path
  · exact (CardStep.causes s _).path
  · exact (CardStep.causes s _).path
  · exact CardPath.refl s

theorem restartRequest_notRunning {s : State} (r : RestartCause) (powered : s.restart.startUp ≠ .supplyHeld) :
    (s.restartRequest r).restart.startUp = .settling ∨ (s.restartRequest r).restart.startUp = .restarting := by
  unfold State.restartRequest
  split
  · exact .inr rfl
  · rename_i settling; exact .inl settling
  · rename_i restarting; exact .inr restarting
  · contradiction

/-- A request made by a line and then held by it. -/
theorem restartRequest_held_path {s : State} (r : RestartCause) (powered : s.restart.startUp ≠ .supplyHeld) (panel chassis : Bool)
    (held : (panel || chassis) = true) : CardPath s ((s.restartRequest r).setHeld panel chassis) := by
  refine (restartRequest_path s r).trans (CardStep.held _ _ _ (fun running => ?_) fun _ _ => held).path
  rcases restartRequest_notRunning r powered with h | h <;> rw [isRunning_iff, h] at running <;> cases running

/-- A held request let go of, by which a start-up that waited for it alone ends. -/
theorem afterRelease_path (s : State) (panel chassis : Bool)
    (fewer : s.restart.restartHeld = false → (panel || chassis) = false) : CardPath s (s.setHeld panel chassis).afterRelease := by
  unfold State.afterRelease
  split
  · rename_i ends
    exact (CardStep.reopened s panel chassis ends.1 ends.2.2).path
  · rename_i stays
    refine (CardStep.held s panel chassis (fun _ => fewer) fun restarting waits => ?_).path
    exact Bool.eq_true_of_not_eq_false fun released => stays ⟨restarting, waits, released⟩

theorem restartCommand_path (s : State) : CardPath s s.restartCommand := by
  have absorbed : CardPath s ((s.restartRequest .command).setBuffers none (some okEmpty)) :=
    (restartRequest_path s .command).trans (CardStep.buffers _ none (some okEmpty) (by simp)).path
  unfold State.restartCommand
  split
  · exact restartRequest_path s .command
  · exact absorbed
  · exact absorbed
  · exact CardPath.refl s

theorem write_path (s : State) (bytes : List Byte) : CardPath s (s.write bytes) := by
  have discarded : ∀ response, CardPath s (s.setBuffers none response) := fun response =>
    (CardStep.buffers s none response (by simp)).path
  unfold State.write
  split
  · rename_i running good
    refine (CardStep.buffers s (some bytes) none fun written same => ?_).path
    cases same
    exact ⟨isRunning_iff.mpr running, rfl, by rw [good]; rfl⟩
  · exact discarded _
  · exact restartCommand_path s
  · exact discarded none
  · exact restartCommand_path s
  · exact discarded none
  · exact CardPath.refl s

theorem restartTimerExpiry_path (s : State) : ∃ t, execRestartTimerExpiry s = .next t ∧ CardPath s t := by
  refine ⟨_, rfl, CardPath.ite ?_⟩
  rintro ⟨restarting, -⟩
  unfold State.restartTimerOut
  split
  · rename_i held
    exact (CardStep.waits s restarting held).path
  · rename_i released
    exact (CardStep.reopened s s.restart.panelHeld s.restart.chassisHeld restarting (by simpa [RestartLogic.restartHeld] using released)).path

theorem panelRestart_path (s : State) : ∃ t, execPanelRestart s = .next t ∧ CardPath s t := by
  refine ⟨_, rfl, ?_⟩
  split
  · exact CardPath.refl s
  · rename_i powered
    exact restartRequest_held_path .panel powered true _ rfl

theorem panelRestartRelease_path (s : State) : ∃ t, execPanelRestartRelease s = .next t ∧ CardPath s t := by
  refine ⟨_, rfl, ?_⟩
  split
  · exact CardPath.refl s
  · exact afterRelease_path s false s.restart.chassisHeld fun h => (Bool.or_eq_false_iff.mp h).2

theorem chassisReset_path (s : State) : ∃ t, execChassisReset s = .next t ∧ CardPath s t := by
  have held : s.restart.startUp ≠ .supplyHeld → CardPath s ((s.restartRequest .chassis).holdChassis true) := fun powered =>
    restartRequest_held_path .chassis powered _ true (Bool.or_true _)
  refine ⟨_, rfl, ?_⟩
  split
  · exact CardPath.refl s
  · rename_i running _
    exact (CardStep.continued s (isRunning_iff.mpr running)).path
  · exact CardPath.refl s
  · exact CardPath.refl s
  · rename_i running _; exact held (by simp [running])
  · rename_i settling _; exact held (by simp [settling])
  · rename_i restarting _; exact held (by simp [restarting])

theorem chassisResetRelease_path (s : State) : ∃ t, execChassisResetRelease s = .next t ∧ CardPath s t := by
  refine ⟨_, rfl, ?_⟩
  split
  · exact CardPath.refl s
  · exact afterRelease_path s s.restart.panelHeld false fun h => by rw [Bool.or_false]; exact (Bool.or_eq_false_iff.mp h).1

/-! ### Every command -/

/-- Every command completes, and what it does is a path of the changes above. -/
theorem exec_path (c : Instr) (s : State) : ∃ t, exec c s = .next t ∧ CardPath s t := by
  cases c with
  | hello slot tag keep => exact ⟨_, rfl, slotRequest_path s slot tag _⟩
  | request slot tag args => exact ⟨_, rfl, slotRequest_path s slot tag _⟩
  | retune slot tag args => exact ⟨_, rfl, slotRequest_path s slot tag _⟩
  | release slot tag handle => exact ⟨_, rfl, slotRequest_path s slot tag _⟩
  | renew slot tag handle period => exact ⟨_, rfl, slotRequest_path s slot tag _⟩
  | query slot tag line => exact ⟨_, rfl, slotRequest_path s slot tag _⟩
  | notices slot tag => exact ⟨_, rfl, slotRequest_path s slot tag _⟩
  | ack slot tag place kind seq => exact ⟨_, rfl, slotRequest_path s slot tag _⟩
  | linkError slot f => exact ⟨_, rfl, CardPath.ite fun due => huntThenFrame_path f (canReceive_listening due.1)⟩
  | frameRefusedBusy slot f => exact ⟨_, rfl, CardPath.ite fun due => huntThenFrame_path f (canReceive_listening due.1)⟩
  | frameGapTimeout slot => exact ⟨_, rfl, hunt_path s slot⟩
  | framingErrorDiscard slot => exact ⟨_, rfl, hunt_path s slot⟩
  | answerSent slot => exact ⟨_, rfl, answerSent_path s slot⟩
  | busyAnswerSent slot => exact ⟨_, rfl, (CardStep.link s slot _ rfl fun mute => by rw [mute]; rfl).path⟩
  | presentAsserted slot => exact presentAsserted_path s slot
  | slotLoss slot => exact slotLoss_path s slot
  | identify => exact ⟨_, rfl, command_reads s _ rfl⟩
  | setStation rate => exact ⟨_, rfl, command_path s _ (takeSetStation_path s rate)⟩
  | setReference ref nominal enabled => exact ⟨_, rfl, command_path s _ (takeSetReference_path s ref nominal enabled)⟩
  | setPriority a b c mode delay => exact ⟨_, rfl, command_path s _ (takeSetPriority_path s a b c mode delay)⟩
  | setQualify period => exact ⟨_, rfl, command_path s _ (takeSetQualify_path s period)⟩
  | writePlan args => exact ⟨_, rfl, command_path s _ fun _ => takeWritePlan_path s args⟩
  | erasePlan entry => exact ⟨_, rfl, command_path s _ fun _ => takeErasePlan_path s entry⟩
  | readPlan entry => exact ⟨_, rfl, command_reads s _ (readCell_state s _ _)⟩
  | setLimits acquire holdover => exact ⟨_, rfl, command_path s _ fun _ => takeSetLimits_path s acquire holdover⟩
  | readReferences => exact ⟨_, rfl, command_reads s _ rfl⟩
  | readLoop loop => exact ⟨_, rfl, command_reads s _ (readCell_state s _ _)⟩
  | readPort port => exact ⟨_, rfl, command_reads s _ (readCell_state s _ _)⟩
  | readGrant port => exact ⟨_, rfl, command_reads s _ (takeReadGrant_state s port)⟩
  | readNotices slotNumber => exact ⟨_, rfl, command_reads s _ (readCell_state s _ _)⟩
  | readAttention => exact ⟨_, rfl, command_reads s _ rfl⟩
  | ackAttention cause => exact ⟨_, rfl, command_path s _ fun running => (CardStep.acknowledge s cause running).path⟩
  | readCause => exact ⟨_, rfl, command_path s _ fun _ => takeReadCause_path s⟩
  | forceRetire handle => exact ⟨_, rfl, command_path s _ (takeForceRetire_path s handle)⟩
  | clearLoop loop => exact ⟨_, rfl, command_path s _ (takeClearLoop_path s loop)⟩
  | holdOn allowAcks => exact ⟨_, rfl, command_path s _ fun running => (CardStep.hold s true allowAcks running).path⟩
  | holdOff allowAcks => exact ⟨_, rfl, command_path s _ fun running => (CardStep.hold s false false running).path⟩
  | setContinuity on => exact ⟨_, rfl, command_path s _ fun _ => (CardStep.continuity s on).path⟩
  | restart => exact ⟨_, rfl, restartCommand_path s⟩
  | commandFormError bytes => exact ⟨_, rfl, CardPath.ite fun _ => command_reads s _ rfl⟩
  | loopWindow k e => exact loopWindow_path s k e
  | settleTimerExpiry k => exact settleTimerExpiry_path s k
  | acquireTimeout k => exact ⟨_, rfl, CardPath.ite fun due => failLoop_path k _ due.1⟩
  | holdoverExpired k => exact ⟨_, rfl, CardPath.ite fun due => failLoop_path k _ due.1⟩
  | lockGained k => exact ⟨_, rfl, takeNextLock_cardPath s k _⟩
  | lockLost k => exact ⟨_, rfl, takeNextLock_cardPath s k _⟩
  | holdoverEntered k => exact ⟨_, rfl, takeNextLock_cardPath s k _⟩
  | holdoverEnded k => exact ⟨_, rfl, takeNextLock_cardPath s k _⟩
  | stasisBegins p => exact stasisBegins_path s p
  | portSwitchCompletes p => exact portSwitchCompletes_path s p
  | groupRollover g => exact groupRollover_path s g
  | switchCompletion p => exact switchCompletion_path s p
  | switchVoid p => exact switchVoid_path s p
  | leaseExpiry p => exact leaseExpiry_path s p
  | referenceWindow ref e => exact referenceWindow_path s ref e
  | qualificationTimerExpiry ref => exact qualificationTimerExpiry_path s ref
  | restoreTimerExpiry => exact restoreTimerExpiry_path s
  | supplyApplied jumpers => exact ⟨_, rfl, (CardStep.settle s jumpers _).path⟩
  | supplyTrip => exact ⟨_, rfl, (CardStep.trip s).path⟩
  | supplyRecovery jumpers => exact ⟨_, rfl, CardPath.ite fun _ => (CardStep.settle s jumpers _).path⟩
  | xoSettleExpiry => exact ⟨_, rfl, CardPath.ite fun due => (CardStep.settled s due.1).path⟩
  | restartTimerExpiry => exact restartTimerExpiry_path s
  | panelRestart => exact panelRestart_path s
  | panelRestartRelease => exact panelRestartRelease_path s
  | chassisReset => exact chassisReset_path s
  | chassisResetRelease => exact chassisResetRelease_path s
  | requestByteReceived slot byte framingError => exact requestByteReceived_path s slot byte framingError
  | writeTransfer bytes =>
    refine ⟨_, rfl, ?_⟩
    split
    · exact CardPath.refl s
    · exact write_path s bytes

end Sys2Proof.Machine

/-! The invariants of the card: every change of `CardStep` keeps them, one millisecond keeps them, and so does every step. -/

namespace Sys2Proof.Machine

/-! ### The queue -/

theorem failLoop_frame (s : State) (k : LoopIx) (cause : FailCause) :
    (s.failLoop k cause).restart = s.restart ∧ (s.failLoop k cause).present = s.present ∧ (s.failLoop k cause).station = s.station ∧
    (s.failLoop k cause).links = s.links ∧ (s.failLoop k cause).pending = s.pending ∧
    (s.failLoop k cause).maint = { s.maint with attention := (s.failLoop k cause).maint.attention } := by
  have frame := failAndRescue_frame s k cause
  refine ⟨frame.restart, frame.present, frame.station, frame.links, frame.pending, ?_⟩
  simp only [State.failLoop, State.fillLatch, State.raiseCause, State.quarantine, State.portsLoopIdle, State.setLoop]
  rw [frame.maint]

/-- What the expiry of the restore timer leaves as it was. -/
theorem restored_frame (s : State) (c : Ref) :
    let t := ((s.changeStation (some c)).evaluateRestore).fillLatch
    t.restart = s.restart ∧ t.present = s.present ∧ t.links = s.links ∧ t.pending = s.pending ∧
    t.maint = { s.maint with attention := t.maint.attention } := by
  dsimp only
  rw [changeStation_frame]
  exact ⟨rfl, rfl, rfl, rfl, rfl⟩

theorem monitorsChange_keeps (s : State) (b : StationBlock) :
    (s.monitorsChange b).restart = s.restart ∧ (s.monitorsChange b).present = s.present ∧ (s.monitorsChange b).links = s.links ∧
    (s.monitorsChange b).pending = s.pending ∧
    (s.monitorsChange b).maint = { s.maint with attention := (s.monitorsChange b).maint.attention } := by
  rw [monitorsChange_frame]
  exact ⟨rfl, rfl, rfl, rfl, rfl⟩

theorem CardStep.pending {s t : State} (h : CardStep s t) : t.pending = s.pending := by
  cases h with
  | engine _ reached path => exact path.frame.pending
  | failure k cause running =>
    obtain ⟨-, -, -, -, pending, -⟩ := failLoop_frame s k cause
    exact pending
  | monitors b running station refs priority =>
    obtain ⟨-, -, -, pending, -⟩ := monitorsChange_keeps s b
    exact pending
  | restored c running candidate =>
    obtain ⟨-, -, -, pending, -⟩ := restored_frame s c
    exact pending
  | settled settling =>
    unfold State.endSettle
    split <;> rfl
  | link | level | inserted | removed | loop | ports | selector | plan | limits | buffers | acknowledge | hold | causes | continuity
  | settle | trip | restart | waits | held | reopened | continued => rfl

/-- Settles O2: every command is a path of changes, and no change touches the queue. -/
theorem everyCommandCompletes : Obligations.EveryCommandCompletes := by
  unfold Obligations.EveryCommandCompletes
  intro c s
  obtain ⟨t, completes, path⟩ := exec_path c s
  exact ⟨t, completes, path.keeps (P := fun u => u.pending = s.pending) (fun _ _ change same => change.pending.trans same) rfl⟩

/-- What every change and a millisecond keep, and what does not rest on the queue, every step keeps. -/
theorem step_keeps {P : State → Prop} (queue : ∀ s l, P s → P { s with pending := l }) (change : ∀ s t, CardStep s t → P s → P t)
    (tick : ∀ s : State, P s → P s.tick) {s t : State} (stepped : step s = .next t) (holds : P s) : P t := by
  unfold step at stepped
  split at stepped
  · rename_i c rest _
    obtain ⟨u, completes, path⟩ := exec_path c { s with pending := rest }
    rw [completes] at stepped
    cases stepped
    exact path.keeps change (queue s rest holds)
  · cases stepped
    exact queue _ _ (tick s holds)

/-! ### The attention latch (08 R149) -/

/-- An action of the grant engine leaves an open latch open. -/
theorem EngineFrame.open {s t : State} (frame : EngineFrame s t) (isOpen : s.maint.attention.Open) : t.maint.attention.Open := by
  obtain ⟨bounded, pending⟩ := isOpen
  refine ⟨frame.bounded bounded, fun c latched => ?_⟩
  have counted := pending c (frame.latched ▸ latched)
  have fewer := frame.counts c.index
  simp only [Attention.pendingCause, decide_eq_true_eq] at counted ⊢
  omega

theorem Attention.powerUp_sound : Attention.powerUp.Sound where
  latchedPending := by intro c h; cases h
  emptyLatch := fun _ c => by cases c <;> decide
  bounded := by decide

theorem CardStep.latch {s t : State} (h : CardStep s t) (sound : s.maint.attention.Sound) : t.maint.attention.Sound := by
  cases h with
  | engine _ reached path => rw [path.calm]; exact sound
  | failure k cause running => exact Attention.fillLatch_sound _ (Attention.raise_open ((failAndRescue_frame s k cause).open sound.open) _)
  | monitors b running station refs priority => exact monitorsChange_latch s b sound
  | restored c running candidate => exact Attention.fillLatch_sound _ (changeStation_open s (some c) sound.open)
  | acknowledge c running => exact Attention.acknowledge_sound _ c sound
  | settle | trip | restart => exact Attention.powerUp_sound
  | settled settling =>
    unfold State.endSettle
    split <;> exact Attention.powerUp_sound
  | link | level | inserted | removed | loop | ports | selector | plan | limits | buffers | hold | causes | continuity | waits | held
  | reopened | continued => exact sound

/-! ### The monitors and the selector (07 R126, R132 to R134) -/

theorem StationBlock.powerUp_sound (period : QualPeriod) : (StationBlock.powerUp period).Sound where
  chosen := by rintro r ⟨⟩; rfl
  none := by intro h; cases h
  refs := fun r => by cases r <;> exact ⟨rfl, rfl, by simp [StationBlock.powerUp, StationBlock.ref, rd, refIx]⟩
  priority := fun r => by cases r <;> simp [StationBlock.powerUp]
  candidate := rfl

theorem StationBlock.lost_sound : StationBlock.lost.Sound where
  chosen := by intro r h; cases h
  none := fun _ r => by cases r <;> rfl
  refs := fun r => by cases r <;> exact ⟨rfl, rfl, fun _ => .inr (.inl rfl)⟩
  priority := fun r => by cases r <;> decide
  candidate := rfl

/-- The references after a module restart are judged afresh, and the best of them is taken (07 R140). -/
theorem StationBlock.restarted_sound {b : StationBlock} (priority : ∀ r, r ∈ b.priority) : b.restarted.Sound := by
  have chosen := StationBlock.bestQualified_spec { b.judgeAll b.rate with restore := none } priority
  refine StationBlock.evaluate_sound _ chosen.1 chosen.2 (fun r => ?_) priority
  exact (StationBlock.judgeAll_ref b b.rate r).symm ▸ RefRec.judgeAfresh_sound _ r b.rate

/-- A restore candidate is QUALIFIED (07 R134). -/
theorem StationBlock.candidate_qualified {b : StationBlock} {c : Ref} (candidate : b.candidate = some c) : b.qualified c = true := by
  unfold StationBlock.candidate at candidate
  split at candidate
  · exact List.find?_some candidate
  · cases candidate
  · cases candidate

/-- The candidate taken as the station reference at the expiry of the restore timer (07 R134). -/
theorem StationBlock.restored_sound {b : StationBlock} {c : Ref} (sound : b.Sound) (candidate : b.restore.map Restore.candidate = some c) :
    ({ b with station := some c } : StationBlock).evaluate.Sound := by
  have qualified : b.qualified c = true := StationBlock.candidate_qualified (sound.candidate ▸ candidate)
  refine StationBlock.evaluate_sound _ ?_ ?_ sound.refs sound.priority
  · rintro r ⟨⟩; exact qualified
  · intro h; cases h

theorem CardStep.selectorSound {s t : State} (h : CardStep s t) (sound : s.station.Sound) : t.station.Sound := by
  cases h with
  | engine _ reached path => rw [path.frame.station]; exact sound
  | failure k cause running =>
    obtain ⟨-, -, station, -, -, -⟩ := failLoop_frame s k cause
    rw [station]; exact sound
  | monitors b running station refs priority =>
    exact monitorsChange_selector s b (refs sound) fun r => priority.symm ▸ sound.priority r
  | restored c running candidate =>
    show ((s.changeStation (some c)).station).evaluate.Sound
    rw [changeStation_station]
    exact StationBlock.restored_sound sound candidate
  | selector b running station block => exact block sound
  | settle | trip => exact StationBlock.lost_sound
  | settled settling =>
    unfold State.endSettle
    split <;> exact StationBlock.powerUp_sound _
  | reopened panel chassis restarting released => exact StationBlock.restarted_sound sound.priority
  | link | level | inserted | removed | loop | ports | plan | limits | buffers | acknowledge | hold | causes | continuity | restart | waits
  | held | continued => exact sound

/-- One millisecond moves the timers alone, whose presence and candidate stay (07 R130, R134). -/
theorem StationBlock.tick_sound {b : StationBlock} (sound : b.Sound) : b.tick.Sound := by
  have ref : ∀ r, b.tick.ref r = { b.ref r with qualTimer := countDown (b.ref r).qualTimer } := fun r => rd_mapCells _ _ _
  have qualified : b.tick.qualified = b.qualified := funext fun r => by rw [StationBlock.qualified, ref]; rfl
  refine ⟨fun r h => ?_, fun h r => ?_, fun r => ?_, sound.priority, ?_⟩
  · rw [qualified]; exact sound.chosen r h
  · rw [qualified]; exact sound.none h r
  · rw [ref]
    refine ⟨(sound.refs r).preDivider, ?_, (sound.refs r).xo⟩
    simpa [countDown] using (sound.refs r).qualTimer
  · have candidate : b.tick.candidate = b.candidate := by rw [StationBlock.candidate, qualified]; rfl
    rw [candidate, ← sound.candidate]
    cases h : b.restore <;> simp [StationBlock.tick, h]

theorem tick_maint (s : State) : s.tick.maint = s.maint := by
  unfold State.tick
  split <;> rfl

theorem tick_selector {s : State} (sound : s.station.Sound) : s.tick.station.Sound := by
  unfold State.tick
  split
  · exact StationBlock.tick_sound sound
  · exact sound

/-- Settles O58: the latch and the selector, each kept by every change and by a millisecond. -/
theorem everyStepKeepsLatchAndSelector : Obligations.EveryStepKeepsLatchAndSelector := by
  unfold Obligations.EveryStepKeepsLatchAndSelector
  intro s t stepped
  constructor
  · exact step_keeps (P := fun u => u.maint.attention.Sound) (fun _ _ h => h) (fun _ _ change => change.latch)
      (fun u h => by rw [tick_maint]; exact h) stepped
  · exact step_keeps (P := fun u => u.station.Sound) (fun _ _ h => h) (fun _ _ change => change.selectorSound)
      (fun _ => tick_selector) stepped

/-! ### Start-up (11 R183, R186, R187) -/

/-- A change that leaves the lines, the links and what start-up reads of the restart logic, and no block at rest disturbed. -/
theorem State.StartUpSound.transfer {s t : State} (sound : s.StartUpSound)
    (restart : t.restart = { s.restart with causes := t.restart.causes, continuity := t.restart.continuity })
    (present : t.present = s.present) (links : t.links = s.links) (quiet : s.restart.startUp ≠ .running → s.Quiet → t.Quiet) :
    t.StartUpSound where
  settleTimer := by rw [restart]; exact sound.settleTimer
  restartTimer := by rw [restart]; exact sound.restartTimer
  heldStart := by rw [restart]; exact sound.heldStart
  quiet := by rw [restart]; exact fun closed => quiet closed (sound.quiet closed)
  released := by rw [restart]; exact sound.released
  listening := by rw [restart, present]; unfold State.link; rw [links]; exact sound.listening
  mute := by unfold State.link; rw [links]; exact sound.mute

/-- At a RUNNING card no block is at rest, so that only the restart logic, the lines and the links are looked at. -/
theorem State.StartUpSound.running {s t : State} (sound : s.StartUpSound) (running : s.isRunning = true) (restart : t.restart = s.restart)
    (present : t.present = s.present) (links : t.links = s.links) : t.StartUpSound :=
  sound.transfer (by rw [restart]) present links fun closed => absurd (isRunning_iff.mp running) closed

/-- No link listens while the card is closed (09 R154, 11 R183). -/
theorem State.StartUpSound.closed_mute {s : State} (sound : s.StartUpSound) (closed : s.isRunning = false) (slot : SlotIx) :
    s.link slot = LinkRec.mute := by
  have quiet := sound.quiet fun running => Bool.eq_false_iff.mp closed (isRunning_iff.mpr running)
  rw [State.link, quiet.links, rd_fill]

theorem State.StartUpSound.reached {s : State} (sound : s.StartUpSound)
    (reached : s.isRunning = true ∨ ∃ slot, (s.link slot).listening = true) : s.isRunning = true := by
  rcases reached with running | ⟨slot, listening⟩
  · exact running
  · refine Bool.eq_true_of_not_eq_false fun closed => ?_
    rw [sound.closed_mute closed slot] at listening
    cases listening

/-- A closed card whose blocks are at rest, one of the start-up timers in its state. -/
theorem startUpSound_closed {t : State} (closed : t.restart.startUp ≠ .running)
    (settle : t.restart.settleTimer.isSome = (t.restart.startUp == .settling))
    (timer : t.restart.restartTimer.isSome = true → t.restart.startUp = .restarting)
    (held : t.restart.startUp = .restarting → t.restart.restartTimer = none → t.restart.restartHeld = true) (quiet : t.Quiet) :
    t.StartUpSound where
  settleTimer := settle
  restartTimer := timer
  heldStart := held
  quiet := fun _ => quiet
  released := fun running => absurd running closed
  listening := fun running => absurd running closed
  mute := fun slot _ => by rw [State.link, quiet.links, rd_fill]

/-- A RUNNING card with no start-up timer and no held request, each link listening as its line says. -/
theorem startUpSound_running {t : State} (running : t.restart.startUp = .running) (settle : t.restart.settleTimer = none)
    (timer : t.restart.restartTimer = none) (released : t.restart.restartHeld = false)
    (listening : ∀ slot, (t.link slot).listening = rd t.present slot)
    (mute : ∀ slot, (t.link slot).listening = false → t.link slot = LinkRec.mute) : t.StartUpSound where
  settleTimer := by rw [settle, running]; rfl
  restartTimer := by intro h; rw [timer] at h; cases h
  heldStart := by intro h; rw [running] at h; cases h
  quiet := fun closed => absurd running closed
  released := fun _ => released
  listening := fun _ => listening
  mute := mute

/-- Blocks at rest do not look at the restart logic, the lines, the plan and the limits. -/
theorem State.Quiet.elsewhere {s : State} (q : s.Quiet) (restart : RestartLogic) (present : Vector Bool 12)
    (plan : Vector (Option PlanEntry) 32) (acquire holdover : Nat) :
    State.Quiet { s with restart := restart, present := present, plan := plan,
                         loops := { s.loops with acquireLimit := acquire, holdoverLimit := holdover } } :=
  ⟨q.ports, q.engine, q.loops, q.notices, q.attention, q.flags, q.waiting, q.links⟩

theorem blank_quiet (s : State) (r : RestartLogic) : ({ s.blank with restart := r } : State).Quiet where
  ports := rfl
  engine := rfl
  loops := ⟨rfl, rfl⟩
  notices := rfl
  attention := rfl
  flags := ⟨rfl, rfl⟩
  waiting := rfl
  links := rfl

theorem enterRestart_startUp (s : State) (kept : Option Response) : (s.enterRestart kept).StartUpSound :=
  startUpSound_closed (by simp [State.enterRestart]) rfl (fun _ => rfl) (fun _ h => by cases h)
    ⟨rfl, rfl, ⟨rfl, rfl⟩, rfl, rfl, ⟨rfl, rfl⟩, rfl, rfl⟩

theorem resetLinks_listening (listens : Vector Bool 12) (slot : SlotIx) : (rd (resetLinks listens) slot).listening = rd listens slot := by
  simp [resetLinks]

theorem resetLinks_mute (listens : Vector Bool 12) (slot : SlotIx) (silent : (rd (resetLinks listens) slot).listening = false) :
    rd (resetLinks listens) slot = LinkRec.mute := by
  rw [resetLinks_listening] at silent
  simp [resetLinks, silent, LinkRec.mute]

theorem openCard_startUp {s : State} (released : s.restart.restartHeld = false) : s.openCard.StartUpSound :=
  startUpSound_running rfl rfl rfl released (resetLinks_listening s.present) (resetLinks_mute s.present)

/-- No start-up timer stands at a RUNNING card (11 R183). -/
theorem State.StartUpSound.timers {s : State} (sound : s.StartUpSound) (running : s.restart.startUp = .running) :
    s.restart.settleTimer = none ∧ s.restart.restartTimer = none := by
  constructor
  · exact Option.isSome_eq_false_iff.mp (sound.settleTimer.trans (by rw [running]; rfl)) |> Option.isNone_iff_eq_none.mp
  · by_contra standing
    have restarting := sound.restartTimer (Option.isSome_iff_ne_none.mpr standing)
    rw [running] at restarting
    cases restarting

/-- A RUNNING card goes on RUNNING through a change of its lines and links that leaves each link listening as its line says. -/
theorem State.StartUpSound.relinked {s t : State} (sound : s.StartUpSound) (running : s.isRunning = true)
    (restart : t.restart = { s.restart with causes := t.restart.causes })
    (listening : ∀ slot, (t.link slot).listening = rd t.present slot)
    (mute : ∀ slot, (t.link slot).listening = false → t.link slot = LinkRec.mute) : t.StartUpSound := by
  have isRunning := isRunning_iff.mp running
  obtain ⟨settle, timer⟩ := sound.timers isRunning
  exact startUpSound_running (by rw [restart]; exact isRunning) (by rw [restart]; exact settle) (by rw [restart]; exact timer)
    (by rw [restart]; exact sound.released isRunning) listening mute

/-- A change of one link that keeps it listening or mute (09 R154). -/
theorem updLink_startUp {s : State} {slot : SlotIx} {f : LinkRec → LinkRec} (sound : s.StartUpSound)
    (listening : (f (s.link slot)).listening = (s.link slot).listening) (mute : s.link slot = LinkRec.mute → f (s.link slot) = LinkRec.mute) :
    (s.updLink slot f).StartUpSound := by
  by_cases running : s.isRunning = true
  · refine sound.relinked running rfl (fun j => ?_) fun j silent => ?_
    · rw [updLink_link]
      split
      · rename_i same; subst same; rw [listening]; exact sound.listening (isRunning_iff.mp running) j
      · exact sound.listening (isRunning_iff.mp running) j
    · rw [updLink_link] at silent ⊢
      split at silent
      · rename_i same; subst same
        rw [if_pos rfl]
        exact mute (sound.mute j (listening ▸ silent))
      · rename_i other
        rw [if_neg other]
        exact sound.mute j silent
  · have closed := sound.closed_mute (Bool.eq_false_iff.mpr running) slot
    have same : s.updLink slot f = s := by
      rw [updLink_wr, mute closed, ← closed, State.link, wr_rd]
    rw [same]; exact sound

/-- A line and its link changed together at a RUNNING card (09 R167). -/
theorem setPresent_updLink_startUp {s : State} {slot : SlotIx} {level : Bool} {f : LinkRec → LinkRec} (sound : s.StartUpSound)
    (running : s.isRunning = true) (listening : (f (s.link slot)).listening = level)
    (mute : level = false → f (s.link slot) = LinkRec.mute) : ((s.setPresent slot level).updLink slot f).StartUpSound := by
  have isRunning := isRunning_iff.mp running
  have link : ∀ j, ((s.setPresent slot level).updLink slot f).link j = if j = slot then f (s.link slot) else s.link j :=
    fun j => updLink_link _ slot j f
  refine sound.relinked running rfl (fun j => ?_) fun j silent => ?_
  · rw [link]
    show _ = rd (wr s.present slot level) j
    rw [rd_wr]
    split
    · exact listening
    · exact sound.listening isRunning j
  · rw [link] at silent ⊢
    split at silent
    · rename_i same
      rw [if_pos same]
      exact mute (listening.symm.trans silent)
    · rename_i other
      rw [if_neg other]
      exact sound.mute j silent

theorem CardStep.startUp {s t : State} (h : CardStep s t) (sound : s.StartUpSound) : t.StartUpSound := by
  have atRest := fun closed => (sound.quiet closed).elsewhere
  cases h with
  | link slot f listening mute => exact updLink_startUp sound listening mute
  | level slot level unheeded =>
    rcases unheeded with closed | same
    · have notRunning : s.restart.startUp ≠ .running := fun running => Bool.eq_false_iff.mp closed (isRunning_iff.mpr running)
      exact startUpSound_closed notRunning sound.settleTimer sound.restartTimer sound.heldStart (atRest notRunning _ _ _ _ _)
    · have unchanged : s.setPresent slot level = s := by rw [State.setPresent, ← same, wr_rd]
      rw [unchanged]; exact sound
  | inserted slot running => exact setPresent_updLink_startUp sound running rfl (by simp)
  | removed slot running => exact setPresent_updLink_startUp sound running rfl fun _ => rfl
  | engine _ reached path => exact sound.running (sound.reached reached) path.frame.restart path.frame.present path.frame.links
  | failure k cause running =>
    obtain ⟨restart, present, -, links, -, -⟩ := failLoop_frame s k cause
    exact sound.running running restart present links
  | monitors b running station refs priority =>
    obtain ⟨restart, present, links, -, -⟩ := monitorsChange_keeps s b
    exact sound.running running restart present links
  | restored c running candidate =>
    obtain ⟨restart, present, links, -, -⟩ := restored_frame s c
    exact sound.running running restart present links
  | loop k l events running => exact sound.running running rfl rfl rfl
  | ports u running => exact sound.running running rfl rfl rfl
  | selector b running => exact sound.running running rfl rfl rfl
  | acknowledge c running => exact sound.running running rfl rfl rfl
  | hold hold allowAcks running => exact sound.running running rfl rfl rfl
  | plan plan => exact sound.transfer rfl rfl rfl fun closed _ => atRest closed _ _ _ _ _
  | limits acquire holdover => exact sound.transfer rfl rfl rfl fun closed _ => atRest closed _ _ _ _ _
  | buffers waiting response written =>
    refine sound.transfer rfl rfl rfl fun closed q => ⟨q.ports, q.engine, q.loops, q.notices, q.attention, q.flags, ?_, q.links⟩
    cases waiting with
    | none => rfl
    | some bytes => exact absurd (isRunning_iff.mp (written bytes rfl).1) closed
  | causes causes => exact sound.transfer rfl rfl rfl fun closed _ => atRest closed _ _ _ _ _
  | continuity on => exact sound.transfer rfl rfl rfl fun closed _ => atRest closed _ _ _ _ _
  | settle jumpers causes =>
    exact startUpSound_closed (by simp [State.beginSettle]) rfl (fun h => by cases h) (fun h => by cases h) (blank_quiet s _)
  | trip => exact startUpSound_closed (by simp [State.trip]) rfl (fun h => by cases h) (fun h => by cases h) (blank_quiet s _)
  | settled settling =>
    unfold State.endSettle
    split
    · exact enterRestart_startUp _ _
    · rename_i released
      exact openCard_startUp (Bool.eq_false_iff.mpr released)
  | restart kept => exact enterRestart_startUp s kept
  | waits restarting held =>
    have closed : s.restart.startUp ≠ .running := by rw [restarting]; decide
    exact startUpSound_closed closed sound.settleTimer (fun h => by cases h) (fun _ _ => held) (atRest closed _ _ _ _ _)
  | held panel chassis released waiting =>
    exact ⟨sound.settleTimer, sound.restartTimer, waiting, fun closed => atRest closed _ _ _ _ _,
      fun running => released (isRunning_iff.mpr running) (sound.released running), sound.listening, sound.mute⟩
  | reopened panel chassis restarting released => exact openCard_startUp released
  | continued running => exact sound.relinked running rfl (resetLinks_listening s.present) (resetLinks_mute s.present)

end Sys2Proof.Machine

/-! Start-up, the maintenance buffers, the loop records and the port records: kept by every change, by a millisecond and by every step. -/

namespace Sys2Proof.Machine

/-! ### Start-up over a millisecond (11 R183) -/

/-- Start-up does not look at the queue. -/
theorem queue_startUp (s : State) (l : List Instr) (sound : s.StartUpSound) : State.StartUpSound { s with pending := l } :=
  sound.transfer rfl rfl rfl fun _ q => ⟨q.ports, q.engine, q.loops, q.notices, q.attention, q.flags, q.waiting, q.links⟩

theorem LinkRec.mute_tick : LinkRec.mute.tick = LinkRec.mute := rfl

theorem LinkRec.tick_listening (l : LinkRec) : l.tick.listening = l.listening := by
  unfold LinkRec.tick LinkRec.send
  split <;> rfl

theorem tick_restart (s : State) : s.tick.restart = s.restart.tick := by
  unfold State.tick
  split <;> rfl

theorem tick_present (s : State) : s.tick.present = s.present := by
  unfold State.tick
  split <;> rfl

theorem tick_link (s : State) (slot : SlotIx) : s.tick.link slot = (s.link slot).tick := by
  unfold State.tick
  split <;> exact rd_mapCells _ _ _

/-- A millisecond of a closed card counts the start-up timers and no other block's (11 R183). -/
theorem tick_closed {s : State} (closed : s.isRunning = false) :
    s.tick = { s with restart := s.restart.tick, links := mapCells (fun _ l => l.tick) s.links } := by
  unfold State.tick
  rw [if_neg (by simp [closed])]

theorem countDown_isSome (t : Option Nat) : (countDown t).isSome = t.isSome := by simp [countDown]

theorem countDown_eq_none {t : Option Nat} : countDown t = none ↔ t = none := by simp [countDown]

theorem tick_startUp {s : State} (sound : s.StartUpSound) : s.tick.StartUpSound := by
  have muted : ∀ slot, (s.tick.link slot).listening = false → s.tick.link slot = LinkRec.mute := fun slot silent => by
    rw [tick_link] at silent ⊢
    rw [sound.mute slot ((LinkRec.tick_listening _).symm.trans silent)]
    rfl
  refine ⟨?_, ?_, ?_, fun closed => ?_, ?_, ?_, muted⟩
  · rw [tick_restart]; exact (countDown_isSome _).trans sound.settleTimer
  · rw [tick_restart]; exact fun standing => sound.restartTimer (by rwa [← countDown_isSome])
  · rw [tick_restart]; exact fun restarting removed => sound.heldStart restarting (countDown_eq_none.mp removed)
  · rw [tick_restart] at closed
    have q := sound.quiet closed
    rw [tick_closed (Bool.eq_false_iff.mpr fun running => closed (isRunning_iff.mp running))]
    refine ⟨q.ports, q.engine, q.loops, q.notices, q.attention, q.flags, q.waiting, ?_⟩
    refine bank_ext _ _ fun slot => ?_
    simp only [q.links, rd_mapCells, rd_fill, LinkRec.mute_tick]
  · rw [tick_restart]; exact sound.released
  · rw [tick_restart, tick_present]
    exact fun running slot => by rw [tick_link, LinkRec.tick_listening]; exact sound.listening running slot

/-! ### The maintenance buffers (10 R171, R172) -/

/-- The buffers rest on the two buffers alone. -/
theorem State.BuffersSound.congr {s t : State} (sound : s.BuffersSound) (waiting : t.maint.waiting = s.maint.waiting)
    (response : t.maint.response = s.maint.response) : t.BuffersSound where
  exclusive := by rw [waiting, response]; exact sound.exclusive
  goodForm := by rw [waiting]; exact sound.goodForm

/-- Where no command waits the buffers are sound. -/
theorem buffersSound_of_none {t : State} (idle : t.maint.waiting = none) : t.BuffersSound where
  exclusive := by intro h; rw [idle] at h; cases h
  goodForm := by intro bytes h; rw [idle] at h; cases h

theorem CardStep.buffersSound {s t : State} (h : CardStep s t) (sound : s.BuffersSound) : t.BuffersSound := by
  cases h with
  | engine _ reached path => exact sound.congr (by rw [path.calm]) (by rw [path.calm])
  | failure k cause running =>
    obtain ⟨-, -, -, -, -, maint⟩ := failLoop_frame s k cause
    exact sound.congr (by rw [maint]) (by rw [maint])
  | monitors b running station refs priority =>
    obtain ⟨-, -, -, -, maint⟩ := monitorsChange_keeps s b
    exact sound.congr (by rw [maint]) (by rw [maint])
  | restored c running candidate =>
    obtain ⟨-, -, -, -, maint⟩ := restored_frame s c
    exact sound.congr (by rw [maint]) (by rw [maint])
  | buffers waiting response written =>
    refine ⟨fun standing => ?_, fun bytes standing => (written bytes standing).2.2⟩
    obtain ⟨bytes, standing⟩ := Option.isSome_iff_exists.mp standing
    exact (written bytes standing).2.1
  | settle | trip | restart => exact buffersSound_of_none rfl
  | settled settling =>
    unfold State.endSettle
    split <;> exact buffersSound_of_none rfl
  | link | level | inserted | removed | loop | ports | selector | plan | limits | acknowledge | hold | causes | continuity | waits | held
  | reopened | continued => exact sound.congr rfl rfl

/-- Settles O59: start-up is kept by every change and by a millisecond, and so are the buffers. -/
theorem everyStepKeepsStartUpAndBuffers : Obligations.EveryStepKeepsStartUpAndBuffers := by
  unfold Obligations.EveryStepKeepsStartUpAndBuffers
  intro s t stepped
  refine ⟨step_keeps (P := State.StartUpSound) queue_startUp (fun _ _ change => change.startUp) (fun _ => tick_startUp) stepped, fun _ =>
    step_keeps (P := State.BuffersSound) (fun _ _ h => h.congr rfl rfl) (fun _ _ change => change.buffersSound)
      (fun u h => h.congr (by rw [tick_maint]) (by rw [tick_maint])) stepped⟩

/-! ### The loop records (Table 3-1) -/

/-- The loop records rest on themselves and the station reference alone. -/
theorem loopsSound_congr {s t : State} (loops : t.loops.loops = s.loops.loops) (station : t.station.station = s.station.station)
    (sound : s.LoopsSound) : t.LoopsSound := by
  intro k
  unfold State.loop
  rw [loops, station]
  exact sound k

theorem loopsSound_atRest {t : State} (idle : t.loops.loops = fill 6 LoopRec.idle) : t.LoopsSound := by
  intro k
  rw [State.loop, idle, rd_fill]
  exact LoopRec.idle_sound _ none

/-- A restart that is waited for or under way finds every loop at rest (11 R186). -/
theorem State.StartUpSound.restarting_quiet {s : State} (sound : s.StartUpSound) (restarting : s.restart.startUp = .restarting) : s.Quiet :=
  sound.quiet (by rw [restarting]; decide)

theorem CardStep.loopsSound {s t : State} (h : CardStep s t) (startUp : s.StartUpSound) (sound : s.LoopsSound) : t.LoopsSound := by
  cases h with
  | engine _ reached path => exact path.loopsSound sound
  | failure k cause running => exact failLoop_loopsSound s k cause sound
  | loop k l events running kept output =>
    have set := setLoop_soundBut (fun _ => False) s k l (fun _ => kept (sound k)) fun j _ => sound j
    exact loopsSound_congr (s := s.setLoop k l) rfl rfl fun j => set j id
  | monitors b running station refs priority => exact (monitorsChange_records s b station).1 sound
  | restored c running candidate => exact loopsSound_congr rfl rfl (changeStation_loopsSound s (some c) sound)
  | selector b running station block => exact loopsSound_congr (s := s) rfl station sound
  | settle | trip | restart => exact loopsSound_atRest rfl
  | settled settling =>
    unfold State.endSettle
    split <;> exact loopsSound_atRest rfl
  | reopened panel chassis restarting released => exact loopsSound_atRest (startUp.restarting_quiet restarting).loops.1
  | link | level | inserted | removed | ports | plan | limits | buffers | acknowledge | hold | causes | continuity | waits | held
  | continued => exact loopsSound_congr rfl rfl sound

theorem tick_loop (s : State) (k : LoopIx) : s.tick.loop k = (s.loop k).tick ∨ s.tick.loop k = s.loop k := by
  unfold State.tick
  split
  · exact .inl (rd_mapCells _ _ _)
  · exact .inr rfl

theorem tick_station (s : State) : s.tick.station.station = s.station.station := by
  unfold State.tick
  split <;> rfl

theorem tick_loopsSound {s : State} (sound : s.LoopsSound) : s.tick.LoopsSound := by
  intro k
  rw [tick_station]
  rcases tick_loop s k with counted | same
  · rw [counted]; exact LoopRec.tick_sound _ _ (sound k)
  · rw [same]; exact sound k

/-! ### The port records (04 R75 to R77) -/

theorem portsSound_atRest {t : State} (off : t.switch = t.switch.reset) : t.PortsSound := by
  intro p
  rw [off]
  exact PortRec.sound_of_still _ (by simp [SwitchUnit.reset, SwitchUnit.powerUp, PortRec.off])

/-- Loops none of which comes to rest make no source silent that drove edges (04 R73). -/
theorem silentSource_fewer {before after : Vector LoopRec 6} {station : Option Ref}
    (output : ∀ k, (rd after k).state = (rd before k).state ∨ ((rd after k).state ≠ .waiting ∧ (rd after k).state ≠ .idle)) (x : Source)
    (edges : silentSource before station x = false) : silentSource after station x = false := by
  cases x with
  | none => rfl
  | fallback fd => exact edges
  | loop k d g =>
    rcases output k with same | ⟨notWaiting, notIdle⟩
    · simpa only [silentSource, same] using edges
    · simp [silentSource, notWaiting, notIdle]

theorem CardStep.portsSound {s t : State} (h : CardStep s t) (startUp : s.StartUpSound) (sound : s.PortsSound) : t.PortsSound := by
  cases h with
  | engine _ reached path => exact path.portsSound sound
  | failure k cause running => exact failLoop_portsSound s k cause sound
  | loop k l events running kept output =>
    refine fun p => PortRec.sound_fewer _ (silentSource_fewer fun j => ?_) (sound p)
    rw [rd_wr]
    split
    · rename_i same; subst same; exact output
    · exact .inl rfl
  | ports u running kept => exact kept sound
  | monitors b running station refs priority => exact (monitorsChange_records s b station).2 sound
  | restored c running candidate => exact portsSound_congr rfl rfl rfl (changeStation_portsSound s (some c) sound)
  | selector b running station block => exact portsSound_congr (s := s) rfl rfl station sound
  | settle | trip | restart => exact portsSound_atRest rfl
  | settled settling =>
    unfold State.endSettle
    split <;> exact portsSound_atRest rfl
  | reopened panel chassis restarting released =>
    exact portsSound_atRest (t := (s.setHeld panel chassis).endRestart) (startUp.restarting_quiet restarting).ports
  | link | level | inserted | removed | plan | limits | buffers | acknowledge | hold | causes | continuity | waits | held | continued =>
    exact portsSound_congr rfl rfl rfl sound

theorem LoopRec.tick_state (l : LoopRec) : l.tick.state = l.state := by
  unfold LoopRec.tick
  split <;> rfl

theorem tick_switch (s : State) : s.tick.switch = s.switch := by
  unfold State.tick
  split <;> rfl

theorem tick_portsSound {s : State} (sound : s.PortsSound) : s.tick.PortsSound := by
  intro p
  rw [tick_switch, tick_station]
  refine PortRec.sound_fewer _ (silentSource_fewer fun k => .inl ?_) (sound p)
  rcases tick_loop s k with counted | same
  · exact (congrArg LoopRec.state counted).trans (LoopRec.tick_state _)
  · exact congrArg LoopRec.state same

/-- Settles O60: loop and port records are kept by every change and by a millisecond, start-up being kept beside them. -/
theorem everyStepKeepsLoopsAndPorts : Obligations.EveryStepKeepsLoopsAndPorts := by
  unfold Obligations.EveryStepKeepsLoopsAndPorts
  intro s t stepped startUp
  refine ⟨fun loops => ?_, fun ports => ?_⟩
  · exact (step_keeps (P := fun u => u.StartUpSound ∧ u.LoopsSound) (fun u l h => ⟨queue_startUp u l h.1, h.2⟩)
      (fun _ _ change h => ⟨change.startUp h.1, change.loopsSound h.1 h.2⟩) (fun _ h => ⟨tick_startUp h.1, tick_loopsSound h.2⟩)
      stepped ⟨startUp, loops⟩).2
  · exact (step_keeps (P := fun u => u.StartUpSound ∧ u.PortsSound) (fun u l h => ⟨queue_startUp u l h.1, h.2⟩)
      (fun _ _ change h => ⟨change.startUp h.1, change.portsSound h.1 h.2⟩) (fun _ h => ⟨tick_startUp h.1, tick_portsSound h.2⟩)
      stepped ⟨startUp, ports⟩).2

end Sys2Proof.Machine

/-! The wire (chapters 9 and 10): requests and commands read back, the check byte, and which payloads a reader refuses. -/

namespace Sys2Proof

/-! ### Lengths -/

theorem readNone_form {α : Type} {x y : α} {payload : List Byte} (read : readNone x payload = some y) : payload.length = 0 ∧ x = y := by
  unfold readNone at read
  split at read
  · exact ⟨rfl, Option.some.inj read⟩
  · cases read

theorem readOne_form {α : Type} {f : Byte → Option α} {y : α} {payload : List Byte} (read : readOne f payload = some y) :
    payload.length = 1 ∧ ∃ a, f a = some y := by
  unfold readOne at read
  split at read
  · exact ⟨rfl, _, read⟩
  · cases read

theorem readTwo_form {α : Type} {f : Byte → Byte → Option α} {y : α} {payload : List Byte} (read : readTwo f payload = some y) :
    payload.length = 2 ∧ ∃ a b, f a b = some y := by
  unfold readTwo at read
  split at read
  · exact ⟨rfl, _, _, read⟩
  · cases read

theorem readFour_form {α : Type} {f : Byte → Byte → Byte → Byte → Option α} {y : α} {payload : List Byte}
    (read : readFour f payload = some y) : payload.length = 4 ∧ ∃ a b c d, f a b c d = some y := by
  unfold readFour at read
  split at read
  · exact ⟨rfl, _, _, _, _, read⟩
  · cases read

theorem readRequestArgs_length {payload : List Byte} {r : SlotReq} (read : readRequestArgs payload = some r) : payload.length = 14 := by
  unfold readRequestArgs at read
  split at read
  · rfl
  · cases read

theorem readRetuneArgs_length {payload : List Byte} {r : SlotReq} (read : readRetuneArgs payload = some r) : payload.length = 9 := by
  unfold readRetuneArgs at read
  split at read
  · rfl
  · cases read

theorem readQuery_length {payload : List Byte} {r : SlotReq} (read : readQuery payload = some r) : payload.length = 0 ∨ payload.length = 1 := by
  unfold readQuery at read
  split at read
  · exact .inl rfl
  · exact .inr rfl
  · cases read

theorem readAck_length {payload : List Byte} {r : SlotReq} (read : readAck payload = some r) : payload.length = 3 := by
  unfold readAck at read
  split at read
  · rfl
  · cases read

theorem readSetReference_form {payload : List Byte} {c : Instr} (read : readSetReference payload = some c) :
    payload.length = 6 ∧ (commandParts c).isSome = true := by
  unfold readSetReference at read
  split at read
  · split at read <;> cases read
    exact ⟨rfl, rfl⟩
  · cases read

theorem readSetPriority_form {payload : List Byte} {c : Instr} (read : readSetPriority payload = some c) :
    payload.length = 6 ∧ (commandParts c).isSome = true := by
  unfold readSetPriority at read
  split at read
  · split at read <;> cases read
    exact ⟨rfl, rfl⟩
  · cases read

theorem isCommand_of_map {α : Type} {f : α → Instr} {o : Option α} {c : Instr} (all : ∀ x, (commandParts (f x)).isSome = true)
    (read : o.map f = some c) : (commandParts c).isSome = true := by
  obtain ⟨x, -, rfl⟩ := Option.map_eq_some_iff.mp read
  exact all x

theorem readWritePlan_form {payload : List Byte} {c : Instr} (read : readWritePlan payload = some c) :
    payload.length = 10 ∧ (commandParts c).isSome = true := by
  unfold readWritePlan at read
  split at read
  · exact ⟨rfl, isCommand_of_map (fun _ => rfl) read⟩
  · cases read

theorem readReadGrant_form {payload : List Byte} {c : Instr} (read : readReadGrant payload = some c) :
    payload.length ≤ 1 ∧ (commandParts c).isSome = true := by
  unfold readReadGrant at read
  split at read <;> cases read
  · exact ⟨Nat.zero_le 1, rfl⟩
  · exact ⟨le_refl 1, rfl⟩

theorem readHold_isCommand {on acks : Byte} {c : Instr} (read : readHold on acks = some c) : (commandParts c).isSome = true := by
  unfold readHold at read
  split at read <;> cases read <;> rfl

/-- The payload lengths that Table 10-3 allows a command code. -/
def commandLengths (code : Nat) : List Nat :=
  if code ∈ [0x01, 0x40, 0x45, 0x47, 0x61] then [0]
  else if code ∈ [0x13, 0x21, 0x22, 0x41, 0x42, 0x44, 0x46, 0x51, 0x60] then [1]
  else if code ∈ [0x50, 0x52] then [2]
  else if code ∈ [0x10, 0x30] then [4]
  else if code ∈ [0x11, 0x12] then [6]
  else if code = 0x20 then [10]
  else if code = 0x43 then [0, 1]
  else []

/-- What is read as a command has a length that Table 10-3 allows and is a row of the maintenance port, never an event of another block. -/
theorem parseCommandPayload_form {code : Nat} {payload : List Byte} {c : Instr} (read : parseCommandPayload code payload = some c) :
    payload.length ∈ commandLengths code ∧ (commandParts c).isSome = true := by
  have none' : ∀ {x : Instr}, (commandParts x).isSome = true → readNone x payload = some c →
      payload.length ∈ [0] ∧ (commandParts c).isSome = true := fun isCommand read =>
    have ⟨length, same⟩ := readNone_form read
    ⟨List.mem_singleton.mpr length, same ▸ isCommand⟩
  have number : ∀ {f : Byte → Instr}, (∀ a, (commandParts (f a)).isSome = true) → readOne (fun a => some (f a)) payload = some c →
      payload.length ∈ [1] ∧ (commandParts c).isSome = true := fun all read =>
    have ⟨length, a, same⟩ := readOne_form read
    ⟨List.mem_singleton.mpr length, Option.some.inj same ▸ all a⟩
  have code : ∀ {α : Type} {parse : Byte → Option α} {f : α → Instr}, (∀ a, (commandParts (f a)).isSome = true) →
      readOne (fun a => (parse a).map f) payload = some c → payload.length ∈ [1] ∧ (commandParts c).isSome = true := fun all read =>
    have ⟨length, _, mapped⟩ := readOne_form read
    ⟨List.mem_singleton.mpr length, isCommand_of_map all mapped⟩
  have numbers : ∀ {f : Byte → Byte → Byte → Byte → Instr}, (∀ a b c d, (commandParts (f a b c d)).isSome = true) →
      readFour (fun a b c d => some (f a b c d)) payload = some c →
      payload.length ∈ [4] ∧ (commandParts c).isSome = true := fun all read =>
    have ⟨length, _, _, _, _, same⟩ := readFour_form read
    ⟨List.mem_singleton.mpr length, Option.some.inj same ▸ all _ _ _ _⟩
  unfold parseCommandPayload at read
  split at read
  case h_1 => exact none' rfl read
  case h_2 => exact numbers (fun _ _ _ _ => rfl) read
  case h_3 => exact (readSetReference_form read).imp_left List.mem_singleton.mpr
  case h_4 => exact (readSetPriority_form read).imp_left List.mem_singleton.mpr
  case h_5 => exact code (fun _ => rfl) read
  case h_6 => exact (readWritePlan_form read).imp_left List.mem_singleton.mpr
  case h_7 => exact number (fun _ => rfl) read
  case h_8 => exact number (fun _ => rfl) read
  case h_9 => exact numbers (fun _ _ _ _ => rfl) read
  case h_10 => exact none' rfl read
  case h_11 => exact number (fun _ => rfl) read
  case h_12 => exact number (fun _ => rfl) read
  case h_13 =>
    obtain ⟨length, isCommand⟩ := readReadGrant_form read
    exact ⟨List.mem_pair.mpr (by omega), isCommand⟩
  case h_14 => exact number (fun _ => rfl) read
  case h_15 => exact none' rfl read
  case h_16 => exact code (fun _ => rfl) read
  case h_17 => exact none' rfl read
  case h_18 =>
    obtain ⟨length, _, _, mapped⟩ := readTwo_form read
    exact ⟨List.mem_singleton.mpr length, isCommand_of_map (fun _ => rfl) mapped⟩
  case h_19 => exact number (fun _ => rfl) read
  case h_20 =>
    obtain ⟨length, _, _, held⟩ := readTwo_form read
    exact ⟨List.mem_singleton.mpr length, readHold_isCommand held⟩
  case h_21 => exact code (fun _ => rfl) read
  case h_22 => exact none' rfl read
  case h_23 => cases read

/-- A command that a write transfer carries is a row of the maintenance port (10 Table 10-3). -/
theorem parseCommand_isCommand {bytes : List Byte} {c : Instr} (parsed : parseCommand bytes = some c) : (commandParts c).isSome = true := by
  unfold parseCommand at parsed
  split at parsed
  · split at parsed
    · exact (parseCommandPayload_form parsed).2
    · cases parsed
  · cases parsed

/-! ### Values -/

theorem toByte_of_lt {n : Nat} (small : n < 256) : (toByte n).toNat = n := by rw [toByte_toNat, mod_byte n small]

theorem parseRequest_request {a : RequestArgs} (wf : a.wellFormed = true) : parseRequest 2 (SlotReq.request a).payload = some (.request a) := by
  obtain ⟨⟨⟨freq, tol⟩, floor⟩, lease⟩ : ((a.f < 4294967296 ∧ a.tol < 65536) ∧ a.fd < 65536) ∧ a.lease < 65536 := by
    simpa [RequestArgs.wellFormed] using wf
  obtain ⟨port, gen, bytes, parsed⟩ := parseHandle_code a.align
  simp [parseRequest, SlotReq.payload, bytes, be32, be16, readRequestArgs, parseLine_code, parsePolicy_code, parsed, num32_be32 _ freq,
    num16_be16 _ tol, num16_be16 _ floor, num16_be16 _ lease]

theorem parseRequest_retune {a : RetuneArgs} (wf : a.wellFormed = true) : parseRequest 3 (SlotReq.retune a).payload = some (.retune a) := by
  obtain ⟨freq, tol⟩ : a.f < 4294967296 ∧ a.tol < 65536 := by simpa [RetuneArgs.wellFormed] using wf
  obtain ⟨port, gen, bytes, parsed⟩ := parseHandle_code a.handle
  simp [parseRequest, SlotReq.payload, bytes, be32, be16, readRetuneArgs, parseBool_code, parsed, num32_be32 _ freq, num16_be16 _ tol]

/-- Settles O5: each field is read back from its own bytes, request by request. -/
theorem slotRequestEncodingAgrees : Obligations.SlotRequestEncodingAgrees := by
  unfold Obligations.SlotRequestEncodingAgrees
  intro r wf
  cases r with
  | hello keep => simp [parseRequest, SlotReq.kind, SlotReq.payload, readOne, parseBool_code]
  | request a => exact parseRequest_request wf
  | retune a => exact parseRequest_retune wf
  | release h =>
    obtain ⟨port, gen, bytes, parsed⟩ := parseHandle_code h
    simp [parseRequest, SlotReq.kind, SlotReq.payload, bytes, readTwo, parsed]
  | renew h period =>
    obtain ⟨port, gen, bytes, parsed⟩ := parseHandle_code h
    simp [parseRequest, SlotReq.kind, SlotReq.payload, bytes, be16, readFour, parsed, num16_be16 _ (of_decide_eq_true wf)]
  | query line =>
    cases line with
    | none => rfl
    | some line => simp [parseRequest, SlotReq.kind, SlotReq.payload, readQuery, parseLine_code]
  | notices => rfl
  | ack place kind seq =>
    simp [parseRequest, SlotReq.kind, SlotReq.payload, readAck, parsePlace_code, parseNoticeKind_code, toByte_of_lt (of_decide_eq_true wf)]

/-- A command's own code and payload, which fit a byte each, are read back as the command. -/
theorem parseCommandPayload_parts {c : Instr} {code : Nat} {payload : List Byte} (wf : c.wellFormed = true)
    (parts : commandParts c = some (code, payload)) :
    code < 256 ∧ payload.length < 256 ∧ parseCommandPayload code payload = some c := by
  cases c
  all_goals simp only [commandParts, Option.some.injEq, Prod.mk.injEq, reduceCtorEq] at parts
  case identify | readReferences | readAttention | readCause | restart =>
    obtain ⟨rfl, rfl⟩ := parts
    exact ⟨by decide, by decide, rfl⟩
  case setStation rate =>
    obtain ⟨rfl, rfl⟩ := parts
    simp [be32, parseCommandPayload, readFour, num32_be32 _ (of_decide_eq_true wf)]
  case setReference ref nominal enabled =>
    obtain ⟨rfl, rfl⟩ := parts
    simp [be32, parseCommandPayload, readSetReference, parseRef_code, parseBool_code, num32_be32 _ (of_decide_eq_true wf)]
  case setPriority a b c mode delay =>
    obtain ⟨rfl, rfl⟩ := parts
    simp [be16, parseCommandPayload, readSetPriority, parseRef_code, parseSelMode_code, num16_be16 _ (of_decide_eq_true wf)]
  case setQualify q =>
    obtain ⟨rfl, rfl⟩ := parts
    simp [parseCommandPayload, readOne, parseQualPeriod_code]
  case writePlan a =>
    obtain ⟨rfl, rfl⟩ := parts
    obtain ⟨⟨⟨⟨⟨⟨entry, r⟩, n⟩, p⟩, e⟩, l⟩, settle⟩ :
        (((((a.entry < 256 ∧ a.r < 256) ∧ a.n < 65536) ∧ a.p < 256) ∧ a.e < 256) ∧ a.l < 256) ∧ a.settle < 65536 := by
      simpa [Instr.wellFormed, PlanArgs.wellFormed] using wf
    simp [be16, parseCommandPayload, readWritePlan, parseBool_code, toByte_of_lt entry, toByte_of_lt r, num16_be16 _ n, toByte_of_lt p,
      toByte_of_lt e, toByte_of_lt l, num16_be16 _ settle]
  case erasePlan n | readPlan n | readLoop n | readPort n | readNotices n | clearLoop n =>
    obtain ⟨rfl, rfl⟩ := parts
    simp [parseCommandPayload, readOne, toByte_of_lt (of_decide_eq_true wf)]
  case setLimits a h =>
    obtain ⟨rfl, rfl⟩ := parts
    obtain ⟨acquire, holdover⟩ : a < 65536 ∧ h < 65536 := by simpa [Instr.wellFormed] using wf
    simp [be16, parseCommandPayload, readFour, num16_be16 _ acquire, num16_be16 _ holdover]
  case readGrant p =>
    cases p with
    | none =>
      obtain ⟨rfl, rfl⟩ := Prod.mk.inj (Option.some.inj parts)
      exact ⟨by decide, by decide, rfl⟩
    | some p =>
      obtain ⟨rfl, rfl⟩ := Prod.mk.inj (Option.some.inj parts)
      simp [parseCommandPayload, readReadGrant, toByte_of_lt (of_decide_eq_true wf)]
  case ackAttention cause =>
    obtain ⟨rfl, rfl⟩ := parts
    simp [parseCommandPayload, readOne, parseCause_code]
  case forceRetire h =>
    obtain ⟨rfl, rfl⟩ := parts
    obtain ⟨port, gen, bytes, parsed⟩ := parseHandle_code h
    simp [bytes, parseCommandPayload, readTwo, parsed]
  case holdOn acks | holdOff acks =>
    obtain ⟨rfl, rfl⟩ := parts
    cases acks <;> exact ⟨by decide, by decide, rfl⟩
  case setContinuity on =>
    obtain ⟨rfl, rfl⟩ := parts
    simp [parseCommandPayload, readOne, parseBool_code]

/-- Settles O6: a write transfer is the code, the length and the payload of its command. -/
theorem maintenanceCommandEncodingAgrees : Obligations.MaintenanceCommandEncodingAgrees := by
  unfold Obligations.MaintenanceCommandEncodingAgrees
  intro c bytes wf encoded
  obtain ⟨⟨code, payload⟩, parts, rfl⟩ := Option.map_eq_some_iff.mp encoded
  obtain ⟨codeByte, lengthByte, read⟩ := parseCommandPayload_parts wf parts
  exact parseCommand_parts code payload c codeByte lengthByte read

/-! ### The check byte (09 R155) -/

theorem crcByte_self (c : Byte) : crcByte c c = 0#8 := by
  rw [crcByte, BitVec.xor_self]
  simp only [crcShift_zero]

/-- Settles O7: no step of the register loses a difference, and a register met by its own value is cleared. -/
theorem checkByteDetectsOneChangedByte : Obligations.CheckByteDetectsOneChangedByte := by
  unfold Obligations.CheckByteDetectsOneChangedByte
  refine ⟨fun before after a b differ same => differ ?changed, fun bytes => ?itself⟩
  case changed =>
    rw [crc8, crc8, List.foldl_append, List.foldl_append, List.foldl_cons, List.foldl_cons] at same
    exact crcByte_injective_byte _ a b (foldl_crcByte_injective after _ _ same)
  case itself =>
    rw [crc8, List.foldl_append]
    exact crcByte_self _

end Sys2Proof

/-! One millisecond (log 4, 25): what each timer and each link becomes, and which expiries are then queued. -/

namespace Sys2Proof.Machine

/-! ### The millisecond itself -/

theorem step_idle {s : State} (empty : s.pending = []) : step s = .next s.idle := by
  rw [step, empty]

/-- In a RUNNING card outside inspection hold every timer that a hold would freeze counts (10 R182). -/
theorem tick_counting {s : State} (running : s.restart.startUp = .running) (released : s.maint.hold = false) :
    s.tick = { s.tickTimers with restart := s.restart.tick, links := mapCells (fun _ l => l.tick) s.links } := by
  unfold State.tick
  rw [if_pos ⟨isRunning_iff.mpr running, released⟩]
  rfl

/-- In start-up and under inspection hold they do not (10 R182, 11 R183). -/
theorem tick_frozen {s : State} (frozen : s.restart.startUp ≠ .running ∨ s.maint.hold = true) :
    s.tick = { s with restart := s.restart.tick, links := mapCells (fun _ l => l.tick) s.links } := by
  unfold State.tick
  rw [if_neg]
  rintro ⟨running, released⟩
  rcases frozen with closed | hold
  · exact closed (isRunning_iff.mp running)
  · rw [hold] at released; cases released

/-- A loop's timer counts but in WAITING, where it is paused if there is one (03 R54 to R56). -/
theorem LoopRec.tick_eq (l : LoopRec) :
    l.tick = if l.state = .waiting then l else { l with timer := l.timer.map (fun x => { x with remaining := x.remaining - 1 }) } := by
  by_cases waiting : l.state = .waiting
  · rw [if_pos waiting]
    cases timer : l.timer with
    | none => rw [LoopRec.tick, LoopRec.paused, timer, Option.isSome_none, Bool.and_false, if_neg Bool.false_ne_true, Option.map_none, ← timer]
    | some t => simp [LoopRec.tick, LoopRec.paused, waiting, timer]
  · simp [LoopRec.tick, LoopRec.paused, waiting]

/-- A link sends 100 bytes of the answer on the wire, a BUSY answer first, and what it was receiving is discarded (09 R154, R156, R158). -/
theorem LinkRec.tick_eq (l : LinkRec) :
    l.tick = { l with receiver := .hunting, busyTx := l.busyTx.map Transmission.tick,
                      current := if l.busyTx = none then l.current.map Transmission.tick else l.current } := by
  cases busy : l.busyTx with
  | none => simp [LinkRec.tick, LinkRec.send, busy]
  | some t => simp [LinkRec.tick, LinkRec.send, busy]

/-- What a millisecond leaves as it was, whatever the hold. -/
theorem tick_frame (s : State) :
    s.tick.station = { s.station with refs := s.tick.station.refs, restore := s.tick.station.restore } ∧
    s.tick.loops = { s.loops with loops := s.tick.loops.loops } ∧ s.tick.engine = { s.engine with grants := s.tick.engine.grants } ∧
    s.tick.plan = s.plan ∧ s.tick.notices = s.notices := by
  unfold State.tick
  split <;> exact ⟨rfl, rfl, rfl, rfl, rfl⟩

/-- Settles O3: the timers that count, those that a hold freezes, and the links, each by the equation of its tick. -/
theorem idleStepCountsTimers : Obligations.IdleStepCountsTimers := by
  unfold Obligations.IdleStepCountsTimers
  intro s empty
  obtain ⟨station, loops, engine, plan, notices⟩ := tick_frame s
  refine ⟨s.idle, step_idle empty, fun running released => ?counting, fun frozen => ?frozen, tick_restart s, station, loops, engine,
    tick_present s, plan, tick_switch s, notices, tick_maint s, fun slot => ?link⟩
  case counting =>
    have counted := tick_counting running released
    have ticked : s.idle = { s.tick with pending := s.tick.due } := rfl
    rw [ticked, counted]
    refine ⟨fun k => ?_, fun p => rd_mapCells _ _ _, fun r => rd_mapCells _ _ _, rfl⟩
    exact (rd_mapCells _ _ _).trans (LoopRec.tick_eq _)
  case frozen =>
    have ticked : s.idle = { s.tick with pending := s.tick.due } := rfl
    rw [ticked, tick_frozen frozen]
    exact ⟨rfl, rfl, rfl⟩
  case link => exact (tick_link s slot).trans (LinkRec.tick_eq _)

/-! ### What each block has due -/

theorem mem_dueIf {b : Bool} {c d : Instr} : c ∈ dueIf b d ↔ b = true ∧ c = d := by
  cases b <;> simp [dueIf]

theorem lockRow_eq_iff {k : LoopIx} {e : LockEvent} {c : Instr} : lockRow k e = c ↔
    (e.kind = .gained ∧ c = .lockGained k) ∨ (e.kind = .lost ∧ c = .lockLost k) ∨
    (e.kind = .holdoverEntered ∧ c = .holdoverEntered k) ∨ (e.kind = .holdoverEnded ∧ c = .holdoverEnded k) := by
  cases kind : e.kind <;> simp [lockRow, kind, eq_comm]

theorem reportRow_eq_iff {p : PortIx} {r : Report} {c : Instr} : reportRow p r = c ↔
    ((∃ x, r = .completion x) ∧ c = .switchCompletion p) ∨ ((∃ x, r = .void x) ∧ c = .switchVoid p) := by
  cases r <;> simp [reportRow, eq_comm]

theorem mem_dueLoop {s : State} {k : LoopIx} {c : Instr} : c ∈ s.dueLoop k ↔
    (∃ e ∈ s.lockEvents k, lockRow k e = c) ∨
    (s.loopTimerOut k .settle = true ∧ (s.loop k).state = .acquiring ∧ c = .settleTimerExpiry k) ∨
    (s.loopTimerOut k .acquire = true ∧ ((s.loop k).state = .acquiring ∨ (s.loop k).state = .tracking) ∧ c = .acquireTimeout k) ∨
    (s.loopTimerOut k .holdover = true ∧ (s.loop k).state = .holdover ∧ c = .holdoverExpired k) := by
  simp only [State.dueLoop, List.mem_append, List.mem_map, mem_dueIf, Bool.and_eq_true, Bool.or_eq_true, beq_iff_eq, and_assoc, or_assoc]

theorem mem_duePort {s : State} {p : PortIx} {c : Instr} : c ∈ s.duePort p ↔
    (∃ r ∈ s.portReports p, reportRow p r = c) ∨ (s.leaseOut p = true ∧ c = .leaseExpiry p) := by
  simp only [State.duePort, List.mem_append, List.mem_map, mem_dueIf]

theorem mem_dueStation {s : State} {c : Instr} : c ∈ s.dueStation ↔
    (∃ r, r ≠ .xo ∧ s.qualificationOut r = true ∧ c = .qualificationTimerExpiry r) ∨
    (s.restoreOut.isSome = true ∧ c = .restoreTimerExpiry) := by
  simp only [State.dueStation, List.mem_append, mem_dueIf]
  constructor
  · rintro ((⟨out, rfl⟩ | ⟨out, rfl⟩) | restore)
    · exact .inl ⟨.refa, by decide, out, rfl⟩
    · exact .inl ⟨.refb, by decide, out, rfl⟩
    · exact .inr restore
  · rintro (⟨r, notXo, out, rfl⟩ | restore)
    · cases r with
      | xo => exact absurd rfl notXo
      | refa => exact .inl (.inl ⟨out, rfl⟩)
      | refb => exact .inl (.inr ⟨out, rfl⟩)
    · exact .inr restore

theorem mem_dueLink {s : State} {slot : SlotIx} {c : Instr} (due : c ∈ s.dueLink slot) : c = .busyAnswerSent slot ∨ c = .answerSent slot := by
  unfold State.dueLink at due
  split at due
  · exact .inl (mem_dueIf.mp due).2
  · exact .inr (mem_dueIf.mp due).2
  · cases due

theorem mem_dueCommand {s : State} {c : Instr} (due : c ∈ s.dueCommand) : (commandParts c).isSome = true := by
  rw [State.dueCommand, Option.mem_toList, Option.bind_eq_some_iff] at due
  obtain ⟨bytes, -, parsed⟩ := due
  exact parseCommand_isCommand parsed

/-! ### The expiries (03 R54, 06 R124, 07 R130, R134, 11 R184, R186) -/

theorem mem_due_running {s : State} (running : s.isRunning = true) {c : Instr} : c ∈ s.due ↔
    (∃ k, c ∈ s.dueLoop k) ∨ (∃ p, c ∈ s.duePort p) ∨ c ∈ s.dueStation ∨ (∃ slot, c ∈ s.dueLink slot) ∨ c ∈ s.dueCommand := by
  simp only [State.due, if_pos running, List.mem_append, List.mem_flatMap, mem_allLoops, mem_allPorts, mem_allSlots, true_and, or_assoc]

theorem mem_due_startUp {s : State} (closed : ¬ s.isRunning = true) {c : Instr} : c ∈ s.due ↔
    (s.restart.startUp = .settling ∧ s.restart.settleTimer = some 0 ∧ c = .xoSettleExpiry) ∨
    (s.restart.startUp = .restarting ∧ s.restart.restartTimer = some 0 ∧ c = .restartTimerExpiry) := by
  rw [State.due, if_neg closed]
  cases startUp : s.restart.startUp <;> simp [State.dueStartUp, startUp, mem_dueIf]

/-- An expiry that is no answer sent and no maintenance command falls due at the loops, the ports or the monitors, or in start-up. -/
theorem mem_due_expiry {s : State} {c : Instr} (notLink : ∀ slot, c ≠ .busyAnswerSent slot ∧ c ≠ .answerSent slot)
    (notCommand : commandParts c = none) : c ∈ s.due ↔
    (s.isRunning = true ∧ ((∃ k, c ∈ s.dueLoop k) ∨ (∃ p, c ∈ s.duePort p) ∨ c ∈ s.dueStation)) ∨
    (s.restart.startUp = .settling ∧ s.restart.settleTimer = some 0 ∧ c = .xoSettleExpiry) ∨
    (s.restart.startUp = .restarting ∧ s.restart.restartTimer = some 0 ∧ c = .restartTimerExpiry) := by
  have links : ¬ ∃ slot, c ∈ s.dueLink slot := by
    rintro ⟨slot, due⟩
    rcases mem_dueLink due with same | same
    · exact (notLink slot).1 same
    · exact (notLink slot).2 same
  have command : c ∉ s.dueCommand := fun due => by
    have isCommand := mem_dueCommand due
    rw [notCommand] at isCommand
    cases isCommand
  by_cases running : s.isRunning = true
  · have startUp := isRunning_iff.mp running
    rw [mem_due_running running]
    simp [links, command, running, startUp]
  · rw [mem_due_startUp running]
    simp [running]

theorem isRunning_and_loopTimerOut {s : State} {k : LoopIx} {kind : TimerKind} : s.isRunning = true ∧ s.loopTimerOut k kind = true ↔
    s.restart.startUp = .running ∧ s.maint.hold = false ∧ (s.loop k).timer = some { kind := kind, remaining := 0 } := by
  rw [isRunning_iff]
  exact and_congr_right fun running => loopTimerOut_iff running kind

/-- The expiries of the loop timers that fall due. -/
theorem loopExpiry_due (s : State) (k : LoopIx) :
    (Instr.acquireTimeout k ∈ s.due ↔ (s.isRunning = true ∧ s.loopTimerOut k .acquire = true) ∧
      ((s.loop k).state = .acquiring ∨ (s.loop k).state = .tracking)) ∧
    (Instr.settleTimerExpiry k ∈ s.due ↔ (s.isRunning = true ∧ s.loopTimerOut k .settle = true) ∧ (s.loop k).state = .acquiring) ∧
    (Instr.holdoverExpired k ∈ s.due ↔ (s.isRunning = true ∧ s.loopTimerOut k .holdover = true) ∧ (s.loop k).state = .holdover) := by
  refine ⟨?_, ?_, ?_⟩ <;> rw [mem_due_expiry (by simp) rfl] <;>
    simp [mem_dueLoop, mem_duePort, mem_dueStation, lockRow_eq_iff, reportRow_eq_iff, and_assoc]

theorem leaseExpiry_due (s : State) (p : PortIx) : Instr.leaseExpiry p ∈ s.due ↔ s.isRunning = true ∧ s.leaseOut p = true := by
  rw [mem_due_expiry (by simp) rfl]
  simp [mem_dueLoop, mem_duePort, mem_dueStation, lockRow_eq_iff, reportRow_eq_iff]

theorem stationExpiry_due (s : State) :
    (∀ r, Instr.qualificationTimerExpiry r ∈ s.due ↔ s.isRunning = true ∧ r ≠ .xo ∧ s.qualificationOut r = true) ∧
    (Instr.restoreTimerExpiry ∈ s.due ↔ s.isRunning = true ∧ s.restoreOut.isSome = true) := by
  refine ⟨fun r => ?_, ?_⟩ <;> rw [mem_due_expiry (by simp) rfl] <;>
    simp [mem_dueLoop, mem_duePort, mem_dueStation, lockRow_eq_iff, reportRow_eq_iff]

theorem startUpExpiry_due (s : State) :
    (Instr.xoSettleExpiry ∈ s.due ↔ s.restart.startUp = .settling ∧ s.restart.settleTimer = some 0) ∧
    (Instr.restartTimerExpiry ∈ s.due ↔ s.restart.startUp = .restarting ∧ s.restart.restartTimer = some 0) := by
  refine ⟨?_, ?_⟩ <;> rw [mem_due_expiry (by simp) rfl] <;>
    simp [mem_dueLoop, mem_duePort, mem_dueStation, lockRow_eq_iff, reportRow_eq_iff]

theorem leaseOut_iff {s : State} {p : PortIx} : s.leaseOut p = true ↔
    s.restart.startUp = .running ∧ s.maint.hold = false ∧ ∃ g l, s.grantAt p = some g ∧ g.lease = some l ∧ l.remaining = 0 := by
  simp only [State.leaseOut, Bool.and_eq_true, isRunning_iff, Bool.not_eq_true', beq_iff_eq, Option.map_eq_some_iff, Option.bind_eq_some_iff,
    and_assoc]
  exact and_congr_right fun _ => and_congr_right fun _ =>
    ⟨fun ⟨l, ⟨g, live, leased⟩, zero⟩ => ⟨g, l, live, leased, zero⟩, fun ⟨g, l, live, leased, zero⟩ => ⟨l, ⟨g, live, leased⟩, zero⟩⟩

theorem qualificationOut_iff {s : State} {r : Ref} : s.qualificationOut r = true ↔
    s.restart.startUp = .running ∧ s.maint.hold = false ∧ (s.station.ref r).state = .qualifying ∧ (s.station.ref r).qualTimer = some 0 := by
  simp only [State.qualificationOut, Bool.and_eq_true, isRunning_iff, Bool.not_eq_true', beq_iff_eq, and_assoc]

theorem restoreOut_isSome_iff {s : State} : s.restoreOut.isSome = true ↔
    s.restart.startUp = .running ∧ s.maint.hold = false ∧ ∃ r, s.station.restore = some r ∧ r.remaining = 0 := by
  unfold State.restoreOut
  cases s.station.restore with
  | none => simp
  | some r => simp [isRunning_iff]

/-- Settles O4: an idle step queues what is due in the ticked state, where each expiry stands for its own timer at 0. -/
theorem expiriesFallDueAtZero : Obligations.ExpiriesFallDueAtZero := by
  unfold Obligations.ExpiriesFallDueAtZero
  intro s empty
  refine ⟨s.idle, step_idle empty, fun k => ?acquire, fun k => ?settle, fun k => ?holdover, fun p => ?lease, fun r => ?qualification, ?restore,
    (startUpExpiry_due s.tick).1, (startUpExpiry_due s.tick).2⟩
  case acquire => exact (loopExpiry_due s.tick k).1.trans (by rw [isRunning_and_loopTimerOut]; simp only [and_assoc]; rfl)
  case settle => exact (loopExpiry_due s.tick k).2.1.trans (by rw [isRunning_and_loopTimerOut]; simp only [and_assoc]; rfl)
  case holdover => exact (loopExpiry_due s.tick k).2.2.trans (by rw [isRunning_and_loopTimerOut]; simp only [and_assoc]; rfl)
  case lease =>
    refine (leaseExpiry_due s.tick p).trans ?_
    rw [leaseOut_iff, isRunning_iff]
    exact and_iff_right_of_imp fun due => due.1
  case qualification =>
    refine ((stationExpiry_due s.tick).1 r).trans ?_
    rw [qualificationOut_iff, isRunning_iff]
    exact and_iff_right_of_imp fun due => due.2.1
  case restore =>
    refine (stationExpiry_due s.tick).2.trans ?_
    rw [restoreOut_isSome_iff, isRunning_iff]
    exact and_iff_right_of_imp fun due => due.1

end Sys2Proof.Machine

/-! The slot links (09 R154 to R158): bytes, frames, requests and answers at a link, and which payloads are read as a request. -/

namespace Sys2Proof.Machine

/-! ### Requests (Table 9-4) -/

theorem parseRequest_length {kind : Nat} {payload : List Byte} {r : SlotReq} (parsed : parseRequest kind payload = some r) :
    (kind, payload.length) ∈ [(1, 1), (2, 14), (3, 9), (4, 2), (5, 4), (6, 0), (6, 1), (7, 0), (8, 3)] := by
  unfold parseRequest at parsed
  split at parsed
  case h_1 => simp [(readOne_form parsed).1]
  case h_2 => simp [readRequestArgs_length parsed]
  case h_3 => simp [readRetuneArgs_length parsed]
  case h_4 => simp [(readTwo_form parsed).1]
  case h_5 => simp [(readFour_form parsed).1]
  case h_6 => rcases readQuery_length parsed with length | length <;> rw [length] <;> decide
  case h_7 => rw [(readNone_form parsed).1]; decide
  case h_8 => simp [readAck_length parsed]
  case h_9 => cases parsed

theorem isSome_place {α : Type} (values : List α) (b : Byte) : (values[b.toNat]?).isSome = true ↔ b.toNat < values.length := by
  rw [isSome_getElem?]

theorem parseBool_isSome (b : Byte) : (parseBool b).isSome = true ↔ b.toNat < 2 := by
  rw [parseBool_place]; exact isSome_place _ b

theorem parseLine_isSome (b : Byte) : (parseLine b).isSome = true ↔ b.toNat < 2 := by
  rw [parseLine_place]; exact isSome_place _ b

theorem parsePolicy_isSome (b : Byte) : (parsePolicy b).isSome = true ↔ b.toNat < 3 := by
  rw [parsePolicy_place]; exact isSome_place _ b

theorem parsePlace_isSome (b : Byte) : (parsePlace b).isSome = true ↔ b.toNat < 3 := by
  rw [parsePlace_place]; exact isSome_place _ b

theorem isSome_map_iff {α β : Type} {o : Option α} {f : α → β} {p : Prop} (accepts : o.isSome = true ↔ p) : (o.map f).isSome = true ↔ p := by
  rw [Option.isSome_map]; exact accepts

theorem readRequestArgs_isSome (line f3 f2 f1 f0 t1 t0 policy d1 d0 l1 l0 port gen : Byte) :
    (readRequestArgs [line, f3, f2, f1, f0, t1, t0, policy, d1, d0, l1, l0, port, gen]).isSome = true ↔
      (parseLine line).isSome = true ∧ (parsePolicy policy).isSome = true ∧ (parseHandle port gen).isSome = true := by
  cases ln : parseLine line <;> cases po : parsePolicy policy <;> cases hd : parseHandle port gen <;> simp [readRequestArgs, ln, po, hd]

theorem readRetuneArgs_isSome (port gen f3 f2 f1 f0 t1 t0 gap : Byte) :
    (readRetuneArgs [port, gen, f3, f2, f1, f0, t1, t0, gap]).isSome = true ↔
      (parseHandle port gen).isSome = true ∧ (parseBool gap).isSome = true := by
  cases hd : parseHandle port gen <;> cases allow : parseBool gap <;> simp [readRetuneArgs, hd, allow]

theorem readAck_isSome (place kind seq : Byte) : (readAck [place, kind, seq]).isSome = true ↔
    (parsePlace place).isSome = true ∧ (parseNoticeKind kind).isSome = true := by
  cases pl : parsePlace place <;> cases k : parseNoticeKind kind <;> simp [readAck, pl, k]

/-! ### Frames that arrive -/

theorem hunt_hunt (s : State) (slot : SlotIx) : (s.hunt slot).hunt slot = s.hunt slot :=
  hunt_eq _ _ (by rw [State.hunt, updLink_link, if_pos rfl])

theorem working_of_current {l : LinkRec} (none' : l.current = none) : l.working = false := by rw [LinkRec.working, none']; rfl

theorem frameArrives_working {s : State} {slot : SlotIx} {f : RawFrame} (working : (s.link slot).current.isSome = true) :
    s.frameArrives slot f = if f.checkOk then s.holdBusy slot (headTag f.head) else s := by
  rw [State.frameArrives, LinkRec.working, if_pos working]

theorem frameArrives_linkError {s : State} {slot : SlotIx} {f : RawFrame} (idle : (s.link slot).current = none) (bad : f.checkOk = false) :
    s.frameArrives slot f = s.answer slot (headTag f.head) { status := .linkError, payload := [] } := by
  rw [State.frameArrives, working_of_current idle, if_neg Bool.false_ne_true, if_pos bad]
  rfl

theorem frameArrives_badRequest {s : State} {slot : SlotIx} {f : RawFrame} (idle : (s.link slot).current = none) (good : f.checkOk = true)
    (undefined : parseRequest (headKind f.head) f.payload = none) :
    s.frameArrives slot f = s.answer slot (headTag f.head) { status := .badRequest, payload := [] } := by
  rw [State.frameArrives, working_of_current idle, if_neg Bool.false_ne_true, if_neg (by rw [good]; decide)]
  simp only [undefined]
  rfl

theorem frameArrives_request {s : State} {slot : SlotIx} {f : RawFrame} {r : SlotReq} (idle : (s.link slot).current = none)
    (good : f.checkOk = true) (parsed : parseRequest (headKind f.head) f.payload = some r) :
    s.frameArrives slot f = (s.serve slot r).1.answer slot (headTag f.head) (s.serve slot r).2 := by
  rw [State.frameArrives, working_of_current idle, if_neg Bool.false_ne_true, if_neg (by rw [good]; decide)]
  simp only [parsed]
  rfl

/-- The frame of a well-formed request carries its tag, its kind and its payload, and its check byte matches. -/
theorem requestFrame_reads (tag : Tag) {r : SlotReq} (wf : r.wellFormed = true) :
    (requestFrame tag r).checkOk = true ∧ headTag (requestFrame tag r).head = tag ∧
    parseRequest (headKind (requestFrame tag r).head) (requestFrame tag r).payload = some r := by
  have kind := headKind_headByte tag r.kind (kind_lt r)
  refine ⟨beq_self_eq_true _, headTag_headByte tag r.kind (kind_lt r), ?_⟩
  change parseRequest (headKind (headByte tag r.kind)) r.payload = some r
  rw [kind]
  exact slotRequestEncodingAgrees r wf

theorem requestFrame_length (tag : Tag) {r : SlotReq} (wf : r.wellFormed = true) : (requestFrame tag r).payload.length < 256 := by
  have form := parseRequest_length (slotRequestEncodingAgrees r wf)
  change r.payload.length < 256
  simp only [List.mem_cons, Prod.mk.injEq, List.not_mem_nil, or_false] at form
  omega

/-- The frame of a well-formed request does, where it arrives, what the request does. -/
theorem frameArrives_requestFrame (s : State) (slot : SlotIx) (tag : Tag) {r : SlotReq} (wf : r.wellFormed = true) :
    s.frameArrives slot (requestFrame tag r) = s.requestArrives slot tag r := by
  obtain ⟨good, tagged, parsed⟩ := requestFrame_reads tag wf
  unfold State.requestArrives
  cases current : (s.link slot).current with
  | none => rw [frameArrives_request current good parsed, tagged, working_of_current current, if_neg Bool.false_ne_true]; rfl
  | some x =>
    have working : (s.link slot).current.isSome = true := by rw [current]; rfl
    rw [frameArrives_working working, if_pos good, tagged, LinkRec.working, if_pos working]

/-! ### Bytes (09 R156) -/

/-- A link that has received some bytes of a frame. -/
def State.receivingAt (s : State) (slot : SlotIx) (got : List Byte) : State := s.updLink slot (fun l => { l with receiver := .receiving got })

theorem receivingAt_link (s : State) (slot : SlotIx) (got : List Byte) :
    (s.receivingAt slot got).link slot = { s.link slot with receiver := .receiving got } := by
  rw [State.receivingAt, updLink_link, if_pos rfl]

theorem receivingAt_receivingAt (s : State) (slot : SlotIx) (got more : List Byte) :
    (s.receivingAt slot got).receivingAt slot more = s.receivingAt slot more := by
  simp only [State.receivingAt, State.updLink, upd_eq, wr_wr, rd_wr_same]

theorem receivingAt_hunt (s : State) (slot : SlotIx) (got : List Byte) : (s.receivingAt slot got).hunt slot = s.hunt slot := by
  simp only [State.receivingAt, State.hunt, State.updLink, upd_eq, wr_wr, rd_wr_same]

theorem byte_mute {s : State} {slot : SlotIx} (byte : Byte) (fe : Bool) (mute : (s.link slot).listening = false) :
    exec (.requestByteReceived slot byte fe) s = .next s := by
  change execRequestByteReceived slot byte fe s = _
  rw [execRequestByteReceived, mute, if_neg Bool.false_ne_true]

theorem byte_hunting {s : State} {slot : SlotIx} (byte : Byte) (fe : Bool) (listening : (s.link slot).listening = true)
    (hunting : (s.link slot).receiver = .hunting) : exec (.requestByteReceived slot byte fe) s =
      .next (if byte = startByte ∧ fe = false then s.receivingAt slot [] else s) := by
  change execRequestByteReceived slot byte fe s = _
  rw [execRequestByteReceived, if_pos listening]
  simp only [hunting]
  rfl

theorem byte_receiving {s : State} {slot : SlotIx} {got : List Byte} (byte : Byte) (fe : Bool) (listening : (s.link slot).listening = true)
    (receiving : (s.link slot).receiver = .receiving got) :
    exec (.requestByteReceived slot byte fe) s = .next (if fe then s.hunt slot else s.byteReceived slot got byte) := by
  change execRequestByteReceived slot byte fe s = _
  rw [execRequestByteReceived, if_pos listening]
  simp only [receiving]

theorem byteReceived_more {s : State} {slot : SlotIx} {got : List Byte} {byte : Byte} (more : frameOf (got ++ [byte]) = none) :
    s.byteReceived slot got byte = s.receivingAt slot (got ++ [byte]) := by
  simp only [State.byteReceived, more]
  rfl

theorem byteReceived_frame {s : State} {slot : SlotIx} {got : List Byte} {byte : Byte} {f : RawFrame} (complete : frameOf (got ++ [byte]) = some f) :
    s.byteReceived slot got byte = (s.hunt slot).frameArrives slot f := by
  simp only [State.byteReceived, complete]

/-- The rest of a frame's bytes at a link that has received the first of them: the frame arrives. -/
theorem receiveBytes_rest {s : State} {slot : SlotIx} {f : RawFrame} (listening : (s.link slot).listening = true)
    (short : f.payload.length < 256) (got : List Byte) (byte : Byte) (rest : List Byte) (split : f.tail = got ++ byte :: rest) :
    receiveBytes slot (byte :: rest) (s.receivingAt slot got) = .next ((s.hunt slot).frameArrives slot f) := by
  have listens : ((s.receivingAt slot got).link slot).listening = true := by rw [receivingAt_link]; exact listening
  have receives : ((s.receivingAt slot got).link slot).receiver = .receiving got := by rw [receivingAt_link]
  rw [receiveBytes, byte_receiving byte false listens receives]
  simp only [Bool.false_eq_true, if_false]
  induction rest generalizing got byte with
  | nil =>
    have complete : frameOf (got ++ [byte]) = some f := split ▸ frameOf_tail f short
    rw [byteReceived_frame complete, receivingAt_hunt]
    rfl
  | cons next rest ih =>
    have split' : f.tail = (got ++ [byte]) ++ next :: rest := by rw [split, List.append_assoc]; rfl
    have more : frameOf (got ++ [byte]) = none := frameOf_prefix f short _ next rest split'
    have listens' : ((s.receivingAt slot (got ++ [byte])).link slot).listening = true := by rw [receivingAt_link]; exact listening
    have receives' : ((s.receivingAt slot (got ++ [byte])).link slot).receiver = .receiving (got ++ [byte]) := by rw [receivingAt_link]
    rw [byteReceived_more more, receivingAt_receivingAt, receiveBytes, byte_receiving next false listens' receives']
    simp only [Bool.false_eq_true, if_false]
    exact ih (got ++ [byte]) next split' listens' receives'

/-- Settles O8: each byte before the check byte adds itself, the check byte completes the frame, and the frame does what its row does. -/
theorem frameReceivedByteByByte : Obligations.FrameReceivedByteByByte := by
  unfold Obligations.FrameReceivedByteByByte
  intro s slot tag r wf listening hunting
  have first := byte_hunting startByte false listening hunting
  rw [if_pos ⟨rfl, rfl⟩] at first
  have rest := receiveBytes_rest listening (requestFrame_length tag wf) [] (requestFrame tag r).head _ rfl
  have receives : s.canReceive slot (requestFrame tag r) = true := (canReceive_hunting s slot _ hunting).trans listening
  rw [exec_slotRow, State.slotRequest, if_pos receives, ← frameArrives_requestFrame _ slot tag wf, receiveBytes, first]
  exact rest

/-- Settles O9: the receiver's states and bytes, and a frame that arrives by what stands at its link. -/
theorem receiverBytes : Obligations.ReceiverBytes := by
  unfold Obligations.ReceiverBytes
  intro s slot byte
  refine ⟨fun mute fe => byte_mute byte fe mute, fun listening hunting => ⟨?framing, fun other => ?other, ?start⟩,
    fun got listening receiving => ⟨?discard, fun more => ?more, fun f complete => ?complete⟩, frameOf_iff, fun f => ?frame, rfl, rfl⟩
  case framing => rw [byte_hunting byte true listening hunting, if_neg (by simp)]
  case other => rw [byte_hunting byte false listening hunting, if_neg (fun start => other start.1)]
  case start => rw [byte_hunting _ false listening hunting, if_pos ⟨rfl, rfl⟩]; rfl
  case discard => rw [byte_receiving byte true listening receiving]; rfl
  case more => rw [byte_receiving byte false listening receiving, if_neg Bool.false_ne_true, byteReceived_more more]; rfl
  case complete => rw [byte_receiving byte false listening receiving, if_neg Bool.false_ne_true, byteReceived_frame complete]; rfl
  case frame =>
    refine ⟨fun working good => ?_, fun working bad => ?_, frameArrives_linkError, frameArrives_badRequest, fun r => frameArrives_request⟩
    · rw [frameArrives_working working, if_pos good]; rfl
    · rw [frameArrives_working working, if_neg (by rw [bad]; exact Bool.false_ne_true)]

/-! ### Rows at a link -/

/-- Settles O10: the link takes a request, holds its tag, or does not receive it; a receiver that has begun the frame has only to hunt again. -/
theorem slotRequestAtLink : Obligations.SlotRequestAtLink := by
  unfold Obligations.SlotRequestAtLink
  refine ⟨fun s slot tag r => ⟨fun ready => ?ready, fun working => ?working, fun deaf => ?deaf, fun receives => ?begun⟩, fun s slot tag a => rfl⟩
  case ready => rw [exec_slotRow, slotRequest_ready s slot tag r ready]
  case working => rw [exec_slotRow, slotRequest_working s slot tag r working]; rfl
  case deaf => rw [exec_slotRow, State.slotRequest, if_neg (by rw [deaf]; exact Bool.false_ne_true)]
  case begun =>
    have hunting : ((s.hunt slot).link slot).receiver = .hunting := by rw [State.hunt, updLink_link, if_pos rfl]
    have again : (s.hunt slot).canReceive slot (requestFrame tag r) = true := by
      rw [canReceive_hunting _ _ _ hunting, hunt_listening, canReceive_listening receives]
    rw [exec_slotRow, exec_slotRow, State.slotRequest, if_pos receives, State.slotRequest, if_pos again, hunt_hunt]

theorem malformed_iff {f : RawFrame} : f.malformed = true ↔ f.checkOk = false ∨ parseRequest (headKind f.head) f.payload = none := by
  simp [RawFrame.malformed]

/-- LINK_ERROR's row at a ready link is the arrival of its frame (09 R157; log 12). -/
theorem exec_linkError_ready {s : State} {slot : SlotIx} {f : RawFrame} (ready : s.linkReady slot) (malformed : f.malformed = true) :
    exec (.linkError slot f) s = .next (s.frameArrives slot f) := by
  obtain ⟨listening, hunting, idle⟩ := ready
  change execLinkError slot f s = _
  rw [execLinkError, if_pos ⟨(canReceive_hunting s slot f hunting).trans listening, working_of_current idle, malformed⟩, hunt_eq s slot hunting]

/-- FRAME_REFUSED_BUSY's row at a WORKING link is the arrival of its frame (09 R158; log 12). -/
theorem exec_frameRefusedBusy_working {s : State} {slot : SlotIx} {f : RawFrame} (busy : s.linkWorking slot) :
    exec (.frameRefusedBusy slot f) s = .next (if f.checkOk then s.holdBusy slot (headTag f.head) else s) := by
  obtain ⟨listening, hunting, working⟩ := busy
  change execFrameRefusedBusy slot f s = _
  rw [execFrameRefusedBusy, if_pos ⟨(canReceive_hunting s slot f hunting).trans listening, working⟩, hunt_eq s slot hunting,
    frameArrives_working working]

/-- Settles O11: LINK_ERROR's row is the arrival of the frame, and a payload is read by the fields of its kind. -/
theorem malformedFrameAnswered : Obligations.MalformedFrameAnswered := by
  unfold Obligations.MalformedFrameAnswered
  refine ⟨fun s slot f => ⟨fun ready bad => ?linkError, fun ready good undefined => ?badRequest, fun busy => ?working⟩,
    fun kind payload off => ?lengths, fun keep => ?hello, ?request, ?retune, fun port gen => ?release, fun port gen p1 p0 => ?renew, rfl,
    fun line => ?query, rfl, fun place kind seq => ?ack⟩
  case linkError =>
    rw [exec_linkError_ready ready (malformed_iff.mpr (.inl bad)), frameArrives_linkError ready.2.2 bad]
  case badRequest =>
    rw [exec_linkError_ready ready (malformed_iff.mpr (.inr undefined)), frameArrives_badRequest ready.2.2 good undefined]
  case working =>
    obtain ⟨-, -, working⟩ := busy
    change execLinkError slot f s = _
    rw [execLinkError, if_neg]
    rintro ⟨-, idle, -⟩
    rw [LinkRec.working, working] at idle
    cases idle
  case lengths =>
    cases parsed : parseRequest kind payload with
    | none => rfl
    | some r => exact absurd (parseRequest_length parsed) off
  case hello => exact isSome_map_iff (parseBool_isSome keep)
  case request =>
    intro line f3 f2 f1 f0 t1 t0 policy d1 d0 l1 l0 port gen
    exact (readRequestArgs_isSome ..).trans
      (and_congr (parseLine_isSome line) (and_congr (parsePolicy_isSome policy) (parseHandle_isSome port gen)))
  case retune =>
    intro port gen f3 f2 f1 f0 t1 t0 gap
    exact (readRetuneArgs_isSome ..).trans (and_congr (parseHandle_isSome port gen) (parseBool_isSome gap))
  case release => exact isSome_map_iff (parseHandle_isSome port gen)
  case renew => exact isSome_map_iff (parseHandle_isSome port gen)
  case query => exact isSome_map_iff (parseLine_isSome line)
  case ack => exact (readAck_isSome ..).trans (and_congr (parsePlace_isSome place) (parseNoticeKind_isSome kind))

theorem exec_answerSent (s : State) (slot : SlotIx) : exec (.answerSent slot) s = .next (s.updLink slot LinkRec.answerSent) := rfl

/-- Settles O12: a refused frame leaves only its tag, and the end of an answer makes way for the BUSY answer held. -/
theorem workingLinkRefusesAndIsFreed : Obligations.WorkingLinkRefusesAndIsFreed := by
  unfold Obligations.WorkingLinkRefusesAndIsFreed
  intro s slot
  refine ⟨fun f busy => ⟨fun good => ?held, fun bad => ?discarded⟩, fun working clear unheld => ?idle, fun tag working clear held => ?busy,
    fun other => ?other, rfl⟩
  case held => rw [exec_frameRefusedBusy_working busy, if_pos good]; rfl
  case discarded => rw [exec_frameRefusedBusy_working busy, if_neg (by rw [bad]; exact Bool.false_ne_true)]
  case idle =>
    rw [exec_answerSent, updLink_wr, LinkRec.answerSent, if_pos ⟨working, clear⟩, unheld, Option.map_none, ← clear, ← unheld]
  case busy =>
    rw [exec_answerSent, updLink_wr, LinkRec.answerSent, if_pos ⟨working, clear⟩, held]
    rfl
  case other =>
    rw [exec_answerSent, updLink_wr, LinkRec.answerSent, if_neg]
    · rw [State.link, wr_rd]
    · rintro ⟨working, clear⟩
      rcases other with idle | onWire
      · rw [LinkRec.working, idle] at working; cases working
      · exact onWire clear

end Sys2Proof.Machine

/-! The form checks of a maintenance command (10 R172). -/

namespace Sys2Proof.Machine

/-! ### Commands (Table 10-3) -/

theorem parseCommandPayload_codes {code : Nat} {payload : List Byte} (undefined : code ∉ [0x01, 0x10, 0x11, 0x12, 0x13, 0x20, 0x21, 0x22, 0x30,
    0x40, 0x41, 0x42, 0x43, 0x44, 0x45, 0x46, 0x47, 0x50, 0x51, 0x52, 0x60, 0x61]) : parseCommandPayload code payload = none := by
  cases read : parseCommandPayload code payload with
  | none => rfl
  | some c =>
    have form := (parseCommandPayload_form read).1
    simp only [List.mem_cons, List.not_mem_nil, or_false, not_or] at undefined
    simp [commandLengths, undefined] at form

theorem readSetReference_eq (r a b c d en : Byte) : readSetReference [r, a, b, c, d, en] =
    (parseRef r).bind (fun ref => (parseBool en).map (.setReference ref (num32 a b c d))) := by
  cases ref : parseRef r <;> cases enabled : parseBool en <;> simp [readSetReference, ref, enabled]

theorem readSetPriority_eq (a b c m d1 d0 : Byte) : readSetPriority [a, b, c, m, d1, d0] =
    (parseRef a).bind (fun x => (parseRef b).bind (fun y => (parseRef c).bind (fun z =>
      (parseSelMode m).map (fun k => .setPriority x y z k (num16 d1 d0))))) := by
  cases x : parseRef a <;> cases y : parseRef b <;> cases z : parseRef c <;> cases k : parseSelMode m <;> simp [readSetPriority, x, y, z, k]

theorem readHold_eq (on acks : Byte) : readHold on acks =
    (parseBool on).bind (fun held => (parseBool acks).map (fun allow => if held then .holdOn allow else .holdOff allow)) := by
  cases held : parseBool on with
  | none => simp [readHold, held]
  | some held' => cases held' <;> cases allow : parseBool acks <;> simp [readHold, held, allow]

/-- A byte past the last place of an enumeration is no code. -/
theorem place_none {α : Type} {parse : Byte → Option α} {values : List α} {b : Byte} (place : parse b = values[b.toNat]?)
    (past : values.length ≤ b.toNat) : parse b = none := place.trans (List.getElem?_eq_none past)

theorem parseHandle_handle {port gen : Byte} {h : Handle} (samePort : h.port.val = port.toNat) (sameGen : h.gen.val = gen.toNat) :
    parseHandle port gen = some (some h) := by
  obtain ⟨p, g, bytes, parsed⟩ := parseHandle_code (some h)
  obtain ⟨rfl, rfl⟩ : toByte h.port.val = p ∧ toByte h.gen.val = g := by simpa [handleBytes] using bytes
  have portByte : port = toByte h.port.val := BitVec.eq_of_toNat_eq (by rw [toByte_of_lt (by omega), samePort])
  have genByte : gen = toByte h.gen.val := BitVec.eq_of_toNat_eq (by rw [toByte_of_lt (by omega), sameGen])
  rw [portByte, genByte, parsed]

theorem parseHandle_noHandle {port gen : Byte} (small : gen.toNat < 16) (none' : port.toNat = 255) : parseHandle port gen = some none := by
  rw [parseHandle, dif_pos small, if_pos none']

theorem parseHandle_undefined {port gen : Byte} (undefined : 15 < gen.toNat ∨ 23 < port.toNat ∧ port.toNat < 255) :
    parseHandle port gen = none := by
  rw [← Option.not_isSome_iff_eq_none, parseHandle_isSome]
  omega

/-- Settles O33: the length decides first, then each enumerated field by the place of its code. -/
theorem commandForm : Obligations.CommandForm := by
  unfold Obligations.CommandForm
  refine ⟨fun b => rfl, fun code len payload => ⟨fun other => ?otherLength, fun same => ?sameLength⟩, fun code payload => parseCommandPayload_codes,
    fun code payload c read => ?lengths, ?fields⟩
  case otherLength => rw [parseCommand, if_neg other]
  case sameLength => rw [parseCommand, if_pos same]
  case lengths =>
    have length {codes lengths : List Nat} (table : ∀ k ∈ codes, commandLengths k = lengths) (listed : code ∈ codes) :
        payload.length ∈ lengths := table code listed ▸ (parseCommandPayload_form read).1
    refine ⟨fun c0 => ?_, fun c1 => ?_, fun c43 => ?_, fun c2 => ?_, fun c4 => ?_, fun c6 => ?_, fun c10 => ?_⟩
    · exact List.mem_singleton.mp (length (by decide) c0)
    · exact List.mem_singleton.mp (length (by decide) c1)
    · have either := List.mem_pair.mp (length (codes := [0x43]) (lengths := [0, 1]) (by decide) (List.mem_singleton.mpr c43))
      omega
    · exact List.mem_singleton.mp (length (by decide) c2)
    · exact List.mem_singleton.mp (length (by decide) c4)
    · exact List.mem_singleton.mp (length (by decide) c6)
    · exact List.mem_singleton.mp (length (codes := [0x20]) (by decide) (List.mem_singleton.mpr c10))
  case fields =>
    intro flag ref mode period cause reads refused
    refine ⟨rfl, rfl, rfl, rfl, rfl, rfl, fun x => ⟨rfl, rfl, rfl, rfl, rfl, rfl, rfl⟩, fun a b c d => ⟨rfl, rfl⟩,
      fun r a b c d en => ⟨fun x on isRef isFlag => ?_, fun past => ?_⟩,
      fun a b c m d1 d0 => ⟨fun x y z k isRefA isRefB isRefC isMode => ?_, fun past => ?_⟩,
      fun q => ⟨fun x isPeriod => ?_, fun past => ?_⟩,
      fun entry r n1 n0 p e l m s1 s0 => ⟨fun timed isFlag => ?_, fun past => ?_⟩,
      fun c => ⟨fun x isCause => ?_, fun past => ?_⟩,
      fun port gen => ⟨fun small none' => ?_, fun h samePort sameGen => ?_, fun undefined => ?_⟩,
      fun on acks => ⟨fun x isOn isFlag => ?_, fun x isOff isFlag => ?_, fun past => ?_⟩,
      fun c => ⟨fun x isFlag => ?_, fun past => ?_⟩⟩
    · refine (readSetReference_eq ..).trans ?_
      rw [(parseRef_place r).trans isRef, (parseBool_place en).trans isFlag]
      rfl
    · refine (readSetReference_eq ..).trans ?_
      rcases past with past | past
      · rw [place_none (parseRef_place r) past]; rfl
      · rw [place_none (parseBool_place en) past]; simp
    · refine (readSetPriority_eq ..).trans ?_
      rw [(parseRef_place a).trans isRefA, (parseRef_place b).trans isRefB, (parseRef_place c).trans isRefC, (parseSelMode_place m).trans isMode]
      rfl
    · refine (readSetPriority_eq ..).trans ?_
      rcases past with past | past | past | past
      · rw [place_none (parseRef_place a) past]; rfl
      · rw [place_none (parseRef_place b) past]; simp
      · rw [place_none (parseRef_place c) past]; simp
      · rw [place_none (parseSelMode_place m) past]; simp
    · exact Option.map_eq_some_iff.mpr ⟨x, (parseQualPeriod_place q).trans isPeriod, rfl⟩
    · exact Option.map_eq_none_iff.mpr (place_none (parseQualPeriod_place q) past)
    · exact Option.map_eq_some_iff.mpr ⟨timed, (parseBool_place m).trans isFlag, rfl⟩
    · exact Option.map_eq_none_iff.mpr (place_none (parseBool_place m) past)
    · exact Option.map_eq_some_iff.mpr ⟨x, (parseCause_place c).trans isCause, rfl⟩
    · exact Option.map_eq_none_iff.mpr (place_none (parseCause_place c) past)
    · exact Option.map_eq_some_iff.mpr ⟨none, parseHandle_noHandle small none', rfl⟩
    · exact Option.map_eq_some_iff.mpr ⟨some h, parseHandle_handle samePort sameGen, rfl⟩
    · exact Option.map_eq_none_iff.mpr (parseHandle_undefined undefined)
    · refine (readHold_eq on acks).trans ?_
      rw [(parseBool_place on).trans isOn, (parseBool_place acks).trans isFlag]
      rfl
    · refine (readHold_eq on acks).trans ?_
      rw [(parseBool_place on).trans isOff, (parseBool_place acks).trans isFlag]
      rfl
    · refine (readHold_eq on acks).trans ?_
      rcases past with past | past
      · rw [place_none (parseBool_place on) past]; rfl
      · rw [place_none (parseBool_place acks) past]; simp
    · exact Option.map_eq_some_iff.mpr ⟨x, (parseBool_place c).trans isFlag, rfl⟩
    · exact Option.map_eq_none_iff.mpr (place_none (parseBool_place c) past)

end Sys2Proof.Machine

/-! Notices (chapter 8): what is listed, raised and cleared, and the slot requests that read or clear them. -/

namespace Sys2Proof.Machine

/-! ### Listing (08 R146, 09 R163, R164) -/

theorem grantState_place (x : GrantState) : List.idxOf x [.pending, .active, .degraded, .stranded] = x.code := by cases x <;> rfl

theorem policy_place (x : Policy) : List.idxOf x [.fallback, .stop, .keep] = x.code := by cases x <;> rfl

theorem leaseBytes_length (l : Option Lease) : (leaseBytes l).length = 6 := by cases l <;> rfl

theorem bindingBytes_length (b : Option GrantBinding) : (bindingBytes b).length = 3 := by cases b <;> rfl

theorem retuneBytes_length : ∀ r, (retuneBytes r).length = 7
  | none => rfl
  | some (.sameLoop ..) => rfl
  | some (.newLoop ..) => rfl

theorem entryBytes_length (g : Grant) (p : PortIx) : (g.entryBytes p).length = 29 := by
  simp [Grant.entryBytes, handleBytes, be32, be16, leaseBytes_length, bindingBytes_length, retuneBytes_length]

/-- What NOTICES adds to an entry: the reason and generation of RETIRED, and zeros for every other kind (09 R164). -/
def PortNotices.tailBytes (n : PortNotices) (i : Fin 9) : List Byte :=
  match n.retired with
  | some r => if i = 8 then [if r.reason = .leaseExpired then 0x01#8 else 0x02#8, toByte r.gen.val] else [0x00#8, 0x00#8]
  | none => [0x00#8, 0x00#8]

theorem PortNotices.tail_eq (n : PortNotices) (k : PortKind) : [(n.tail k).1, (n.tail k).2] = n.tailBytes k.index := by
  unfold PortNotices.tail PortNotices.tailBytes
  cases n.retired with
  | none => cases k <;> rfl
  | some r =>
    obtain ⟨reason, gen⟩ := r
    cases k <;> cases reason <;> rfl

theorem allPortKinds_index : List.finRange 9 = allPortKinds.map PortKind.index := by decide

theorem PortNotices.entries_eq (n : PortNotices) (place : Place) : n.entries place =
    ((List.finRange 9).filter (fun i => (rd n.kinds i).pending)).map
      (fun i => [toByte place.code, toByte i.val, toByte (rd n.kinds i).seq.val] ++ n.tailBytes i) := by
  rw [allPortKinds_index, List.filter_map, List.map_map]
  refine List.map_congr_left fun k _ => ?_
  rw [Function.comp_apply, ← n.tail_eq]
  rfl

/-! ### Pending kinds (08 R145) -/

theorem PortNotices.anyPending_iff {n : PortNotices} : n.anyPending = true ↔ ∃ k, (rd n.kinds k).pending = true := by
  simp [PortNotices.anyPending, rd, Fin.exists_iff, Vector.any_eq_true]

theorem PortNotices.entries_eq_nil {n : PortNotices} {place : Place} : n.entries place = [] ↔ n.anyPending = false := by
  rw [PortNotices.entries_eq, List.map_eq_nil_iff, List.filter_eq_nil_iff, ← Bool.not_eq_true, PortNotices.anyPending_iff]
  simp

theorem SlotNotices.entries_eq_nil {n : SlotNotices} : n.entries = [] ↔ n.restarted.pending = false ∧ n.continued.pending = false := by
  unfold SlotNotices.entries
  cases n.restarted.pending <;> cases n.continued.pending <;> simp

theorem noticeEntries_eq_nil {s : State} {slot : SlotIx} : s.noticeEntries slot = [] ↔ s.attn slot = false := by
  simp only [State.noticeEntries, List.append_eq_nil_iff, SlotNotices.entries_eq_nil, PortNotices.entries_eq_nil, State.attn, Bool.or_eq_false_iff]
  tauto

theorem noticeEntries_length {s : State} {slot : SlotIx} {e : List Byte} (listed : e ∈ s.noticeEntries slot) : e.length = 5 := by
  have form : ∃ place kind n reason gen, e = noticeEntry place kind n reason gen := by
    simp only [State.noticeEntries, PortNotices.entries, SlotNotices.entries, List.mem_append, List.mem_map] at listed
    rcases listed with ((restarted | continued) | ⟨k, -, rfl⟩) | ⟨k, -, rfl⟩
    · split at restarted
      · exact ⟨_, _, _, _, _, List.mem_singleton.mp restarted⟩
      · cases restarted
    · split at continued
      · exact ⟨_, _, _, _, _, List.mem_singleton.mp continued⟩
      · cases continued
    · exact ⟨_, _, _, _, _, rfl⟩
    · exact ⟨_, _, _, _, _, rfl⟩
  obtain ⟨place, kind, n, reason, gen, rfl⟩ := form
  rfl

/-- Settles O24: QUERY and NOTICES answer from the records as they stand; their fields are the codes' places. -/
theorem queryAndNotices : Obligations.QueryAndNotices := by
  unfold Obligations.QueryAndNotices
  refine ⟨fun s slot tag ready => ⟨fun line => ?query, fun g p => ⟨entryBytes_length g p, ?entry⟩, ?notices, ?lines, fun e => noticeEntries_length,
    noticeEntries_eq_nil⟩, fun u p k => ?raise⟩
  case query =>
    refine (exec_slotRow_served (r := .query line) tag ready rfl).trans ?_
    cases line <;> rfl
  case entry =>
    rw [grantState_place, policy_place]
    refine congrArg₂ (· ++ ·) (congrArg₂ (· ++ ·) (congrArg₂ (· ++ ·) (congrArg₂ (· ++ ·) rfl ?lease) ?binding) ?group) ?retune
    case lease => cases g.lease <;> rfl
    case binding => cases g.binding <;> rfl
    case group => cases g.group <;> rfl
    case retune => rcases g.retune with _ | (_ | _) <;> rfl
  case notices => exact exec_slotRow_served (r := .notices) tag ready rfl
  case lines =>
    exact congrArg₂ (· ++ ·) (congrArg₂ (· ++ ·) rfl (PortNotices.entries_eq ..)) (PortNotices.entries_eq ..)
  case raise =>
    rw [NoticeUnit.raise]
    refine ⟨?_, fun j other => ?_, ?_, fun q other => rd_upd_ne _ _ _ _ other, rfl⟩
    · rw [rd_upd_same, rd_upd_same]; rfl
    · rw [rd_upd_same, rd_upd_ne _ _ _ _ other]
    · rw [rd_upd_same]

/-! ### Clearing (08 R144, 01 R22, R24) -/

theorem clearPort_clearPort (u : NoticeUnit) (p : PortIx) : (u.clearPort p).clearPort p = u.clearPort p := by
  have twice (n : Notice) : n.cleared.cleared = n.cleared := rfl
  have kinds : mapCells (fun _ k => Notice.cleared k) (mapCells (fun _ k => Notice.cleared k) (rd u.ports p).kinds) =
      mapCells (fun _ k => Notice.cleared k) (rd u.ports p).kinds := bank_ext _ _ fun i => by simp only [rd_mapCells, twice]
  simp only [NoticeUnit.clearPort, upd_eq, rd_wr_same, wr_wr, kinds]

theorem clearPort_comm (u : NoticeUnit) {p q : PortIx} (other : p ≠ q) : (u.clearPort p).clearPort q = (u.clearPort q).clearPort p := by
  simp only [NoticeUnit.clearPort, upd_eq, rd_wr_ne _ _ _ _ other, rd_wr_ne _ _ _ _ other.symm, wr_comm _ _ _ _ _ other]

theorem portOf_lines (slot : SlotIx) : portOf slot .a ≠ portOf slot .b := by
  intro same
  have := Fin.val_eq_of_eq same
  simp only [portOf] at this
  omega

theorem clearSlotPorts_clearPort (u : NoticeUnit) (slot : SlotIx) (line : Line) :
    (u.clearPort (portOf slot line)).clearSlotPorts slot = u.clearSlotPorts slot := by
  cases line with
  | a => rw [NoticeUnit.clearSlotPorts, clearPort_clearPort]; rfl
  | b => rw [NoticeUnit.clearSlotPorts, clearPort_comm _ (portOf_lines slot).symm, clearPort_clearPort]; rfl

/-- A retirement that raises nothing leaves to a clearing of the slot nothing but what it would have found before (01 R22). -/
theorem retire_clearSlotPorts {why : RetireWhy} (quiet : why.raised = none) (s : State) (slot : SlotIx) (line : Line) :
    (s.retire (portOf slot line) why).notices.clearSlotPorts slot = s.notices.clearSlotPorts slot := by
  rw [retire_shape]
  cases s.grantAt (portOf slot line) with
  | none => rfl
  | some g =>
    simp only [NoticeUnit.retirement, quiet]
    exact clearSlotPorts_clearPort s.notices slot line

theorem retireSlot_clearSlotPorts {why : RetireWhy} (quiet : why.raised = none) (s : State) (slot : SlotIx) :
    (s.retireSlot slot why).notices.clearSlotPorts slot = s.notices.clearSlotPorts slot :=
  oneMoment_keeps (P := fun t => t.notices.clearSlotPorts slot = s.notices.clearSlotPorts slot)
    (Q := fun t => t.notices.clearSlotPorts slot = s.notices.clearSlotPorts slot) _
    (fun t same => (retire_clearSlotPorts quiet _ slot .b).trans ((retire_clearSlotPorts quiet t slot .a).trans same))
    (fun _ _ _ same => same) (fun _ _ _ same => same) rfl

theorem clearSlot_kinds (u : NoticeUnit) (slot : SlotIx) (p : PortIx) (k : Fin 9) : rd (rd (u.clearSlot slot).ports p).kinds k =
    if p = portOf slot .a ∨ p = portOf slot .b then { rd (rd u.ports p).kinds k with pending := false } else rd (rd u.ports p).kinds k := by
  simp only [NoticeUnit.clearSlot, NoticeUnit.clearSlotPorts, NoticeUnit.clearSlotKinds, NoticeUnit.clearPort, upd_eq, rd_wr]
  by_cases second : p = portOf slot .b
  · subst second
    simp [portOf_lines slot |>.symm, Notice.cleared]
  · by_cases first : p = portOf slot .a
    · subst first
      simp [second, Notice.cleared]
    · simp [second, first]

theorem clearSlot_ports_other (u : NoticeUnit) {slot : SlotIx} {p : PortIx} (other : p ≠ portOf slot .a ∧ p ≠ portOf slot .b) :
    rd (u.clearSlot slot).ports p = rd u.ports p := by
  simp only [NoticeUnit.clearSlot, NoticeUnit.clearSlotPorts, NoticeUnit.clearSlotKinds, NoticeUnit.clearPort, upd_eq,
    rd_wr_ne _ _ _ _ other.1, rd_wr_ne _ _ _ _ other.2]

theorem clearSlot_slots (u : NoticeUnit) (slot : SlotIx) : (u.clearSlot slot).slots =
    wr u.slots slot { restarted := { (rd u.slots slot).restarted with pending := false },
                      continued := { (rd u.slots slot).continued with pending := false } } := rfl

theorem portOf_ne {j slot : SlotIx} (other : j ≠ slot) (line line' : Line) : portOf j line ≠ portOf slot line' := by
  intro same
  have value := Fin.val_eq_of_eq same
  apply other
  apply Fin.ext
  cases line <;> cases line' <;> simp only [portOf] at value <;> omega

/-- After a clearing of a slot its ATTN line is released and every other slot's stands as it did (08 R145). -/
theorem attn_clearSlot {s t : State} {slot : SlotIx} (cleared : t.notices = s.notices.clearSlot slot) (j : SlotIx) :
    t.attn j = if j = slot then false else s.attn j := by
  have quiet (line : Line) : (rd (s.notices.clearSlot slot).ports (portOf slot line)).anyPending = false := by
    rw [← Bool.not_eq_true, PortNotices.anyPending_iff]
    rintro ⟨k, pending⟩
    rw [clearSlot_kinds, if_pos (by cases line <;> simp)] at pending
    cases pending
  unfold State.attn
  rw [cleared]
  by_cases own : j = slot
  · subst own
    rw [if_pos rfl, quiet .a, quiet .b, clearSlot_slots, rd_wr_same]
    rfl
  · have ports (line : Line) : rd (s.notices.clearSlot slot).ports (portOf j line) = rd s.notices.ports (portOf j line) :=
      clearSlot_ports_other _ ⟨portOf_ne own line .a, portOf_ne own line .b⟩
    rw [if_neg own, ports .a, ports .b, clearSlot_slots, rd_wr_ne _ _ _ _ own]

theorem slotGrants_eq (s : State) (slot : SlotIx) : s.slotGrants slot =
    (if (s.grantAt (portOf slot .a)).isSome then 1 else 0) + (if (s.grantAt (portOf slot .b)).isSome then 1 else 0) := by
  rw [State.slotGrants, List.countP_cons, List.countP_cons, List.countP_nil, Nat.zero_add, Nat.add_comm]

/-- The retirement of a slot's ports moves nothing outside the grant engine, the loops, the ports and the notices (01 R24). -/
theorem retireSlot_frame (s : State) (slot : SlotIx) (why : RetireWhy) :
    (s.retireSlot slot why).restart = s.restart ∧ (s.retireSlot slot why).present = s.present ∧
    (s.retireSlot slot why).station = s.station ∧ (s.retireSlot slot why).plan = s.plan ∧ (s.retireSlot slot why).maint = s.maint ∧
    (s.retireSlot slot why).links = s.links ∧ (s.retireSlot slot why).pending = s.pending := by
  obtain ⟨-, -, shape⟩ := retireSlot_shape s slot why
  refine ⟨?_, ?_, ?_, ?_, ?_, ?_, ?_⟩ <;> rw [shape]

/-- Settles O26: HELLO clears the slot kinds, and without keep retires the slot first, whose notices are then clear. -/
theorem helloKeepsOrDrops : Obligations.HelloKeepsOrDrops := by
  unfold Obligations.HelloKeepsOrDrops
  intro s slot tag ready a b count sl cleared
  have counted : s.slotGrants slot = count := slotGrants_eq s slot
  have served (keep : Bool) (released : s.maint.hold = false) : s.serveHello slot keep =
      (if keep then s.withNotices (fun u => u.clearSlotKinds slot)
       else (s.retireSlot slot .helloDrop).withNotices (fun u => (u.clearSlotPorts slot).clearSlotKinds slot), Answer.ok [toByte count]) := by
    rw [State.serveHello, released, if_neg Bool.false_ne_true, counted]
  refine ⟨fun hold keep => ?held, fun released => ⟨?keeps, _, exec_slotRow_served (r := .hello false) tag ready (served false released), ?drop⟩⟩
  case held => exact exec_slotRow_served (r := .hello keep) tag ready (by rw [State.serve, State.serveHello, if_pos hold]; rfl)
  case keeps => exact exec_slotRow_served (r := .hello true) tag ready (served true released)
  case drop =>
    obtain ⟨goneA, goneB, -⟩ := retireSlot_shape s slot .helloDrop
    have notices : ((s.retireSlot slot .helloDrop).withNotices (fun u => u.clearSlot slot)).notices = s.notices.clearSlot slot :=
      congrArg (NoticeUnit.clearSlotKinds · slot) (retireSlot_clearSlotPorts rfl s slot)
    refine ⟨goneA, goneB, ?_, ?_, ?_, ⟨rfl, rfl, rfl⟩, retireSlot_frame s slot .helloDrop⟩
    · exact (attn_clearSlot notices slot).trans (if_pos rfl)
    · exact (congrArg NoticeUnit.slots notices).trans (clearSlot_slots _ _)
    · intro p k
      exact (congrArg (fun u : NoticeUnit => rd (rd u.ports p).kinds k) notices).trans (clearSlot_kinds _ _ _ _)

/-- Settles O13: the line's level, the link's reset, and outside start-up the retirement of the slot's ports. -/
theorem presentLineAndSlotLoss : Obligations.PresentLineAndSlotLoss := by
  unfold Obligations.PresentLineAndSlotLoss
  intro s slot
  have asserted : exec (.presentAsserted slot) s = execPresentAsserted slot s := rfl
  have lost : exec (.slotLoss slot) s = execSlotLoss slot s := rfl
  refine ⟨fun running low => ?begins, fun high => ?again, fun closed => ⟨?level, ?lossInStartUp⟩, fun running => ?loss⟩
  case begins => rw [asserted, execPresentAsserted, if_pos ⟨isRunning_iff.mpr running, low⟩]; rfl
  case again =>
    rw [asserted, execPresentAsserted, if_neg (by rintro ⟨-, low⟩; rw [high] at low; cases low), State.setPresent, ← high, wr_rd]
  case level => rw [asserted, execPresentAsserted, if_neg (fun both => closed (isRunning_iff.mp both.1))]; rfl
  case lossInStartUp => rw [lost, execSlotLoss, if_neg (fun running => closed (isRunning_iff.mp running))]; rfl
  case loss =>
    intro u r
    have same : (s.setPresent slot false).updLink slot (fun _ => LinkRec.mute) = u := rfl
    have goes : exec (.slotLoss slot) s = .next ((u.retireSlot slot .slotLoss).withNotices (fun n => n.clearSlot slot)) := by
      rw [lost, execSlotLoss, if_pos (isRunning_iff.mpr running), same]
    obtain ⟨goneA, goneB, -⟩ := retireSlot_shape u slot .slotLoss
    obtain ⟨restart, present, station, plan, maint, links, pending⟩ := retireSlot_frame u slot .slotLoss
    have notices : ((u.retireSlot slot .slotLoss).withNotices (fun n => n.clearSlot slot)).notices = s.notices.clearSlot slot :=
      congrArg (NoticeUnit.clearSlotKinds · slot) (retireSlot_clearSlotPorts rfl u slot)
    refine ⟨_, goes, present, links, goneA, goneB, rfl, rfl, rfl, (attn_clearSlot notices slot).trans (if_pos rfl), fun p k => ?_,
      fun j other => ⟨(attn_clearSlot notices j).trans (if_neg other), ?_⟩, restart, station, plan, maint, pending⟩
    · refine (congrArg (fun n : NoticeUnit => (rd (rd n.ports p).kinds k).seq) notices).trans ?_
      rw [clearSlot_kinds, apply_ite Notice.seq, ite_self]
    · refine (congrArg (fun n : NoticeUnit => rd n.slots j) notices).trans ?_
      rw [clearSlot_slots, rd_wr_ne _ _ _ _ other]

end Sys2Proof.Machine

/-! The step, and the card right after reset. -/

namespace Sys2Proof.Machine

/-- Settles O1: the step takes the front of the queue. -/
theorem stepRunsFrontCommand : Obligations.StepRunsFrontCommand := by
  unfold Obligations.StepRunsFrontCommand
  intro c rest s
  rfl

theorem reset_loop (k : LoopIx) : State.reset.loop k = LoopRec.idle := rd_fill _ _

theorem reset_port (p : PortIx) : rd State.reset.switch.ports p = PortRec.off := rd_fill _ _

theorem reset_portNotices (p : PortIx) : rd State.reset.notices.ports p = { kinds := fill 9 Notice.clear, retired := none } := rd_fill _ _

theorem reset_slotNotices (slot : SlotIx) : rd State.reset.notices.slots slot = { restarted := Notice.clear, continued := Notice.clear } := rd_fill _ _

theorem reset_link (slot : SlotIx) : State.reset.link slot = LinkRec.mute := rd_fill _ _

theorem clearKinds_quiet : ({ kinds := fill 9 Notice.clear, retired := none } : PortNotices).anyPending = false := by decide

theorem reset_attn (slot : SlotIx) : State.reset.attn slot = false := by
  rw [State.attn, reset_portNotices, reset_portNotices, reset_slotNotices, clearKinds_quiet]
  rfl

theorem reset_startUpSound : State.reset.StartUpSound :=
  startUpSound_running rfl rfl rfl rfl (fun slot => by rw [reset_link]; exact (rd_fill false slot).symm) (fun slot _ => reset_link slot)

/-- Settles O57: each bank is filled with its power-up value, and every invariant begins there. -/
theorem resetState : Obligations.ResetState := by
  unfold Obligations.ResetState
  refine ⟨rfl, rfl, rfl, rfl, rfl, rfl, rfl, fun slot => rd_fill _ _, rfl, rfl, fun r other => ?reference, rfl, rfl, rfl, rfl, rfl, rfl,
    fun i => rd_fill _ _, fun k => ⟨reset_loop k, rd_fill _ _, rd_fill _ _⟩, rfl, rfl, fun p => ?port, fun g => ⟨rd_fill _ _, rd_fill _ _⟩,
    fun slot => ⟨reset_slotNotices slot, reset_attn slot, reset_link slot⟩, fun c => rd_fill _ _, rfl, rfl, rfl, rfl, rfl, rfl,
    Attention.powerUp_sound, StationBlock.powerUp_sound _, reset_startUpSound, buffersSound_of_none rfl, loopsSound_atRest rfl,
    portsSound_atRest rfl⟩
  case reference =>
    cases r with
    | xo => exact absurd rfl other
    | refa => rfl
    | refb => rfl
  case port =>
    refine ⟨rd_fill _ _, rd_fill _ _, rd_fill _ _, ?_, ?_, fun k => ?_, ?_⟩
    · rw [reset_port]; rfl
    · rw [reset_port]; rfl
    · rw [reset_portNotices, rd_fill]; rfl
    · rw [reset_portNotices]

end Sys2Proof.Machine

/-! The maintenance port (chapter 10): transfers, and each command in the order of its checks. -/

namespace Sys2Proof.Machine

/-! ### The port around the owners (10 R171 to R174) -/

/-- A command taken by its owner at a RUNNING card. -/
theorem exec_command_running {s t : State} {c : Instr} {take : State → State × Response} {st : MaintStatus} {payload : List Byte}
    (running : s.restart.startUp = .running) (row : exec c s = .next (s.command take)) (answer : take s = (t, { status := st, payload := payload })) :
    exec c s = .next { t with maint := { t.maint with waiting := none, response := some { status := st, payload := payload } } } := by
  rw [row, command_running running, answer]
  rfl

/-- Every maintenance command but RESTART is taken through its owner. -/
theorem exec_maintenance {c : Instr} (s : State) (isCommand : (commandParts c).isSome = true) (notRestart : c ≠ .restart) :
    ∃ take, exec c s = .next (s.command take) := by
  cases c
  case identify | setStation | setReference | setPriority | setQualify | writePlan | erasePlan | readPlan | setLimits | readReferences |
      readLoop | readPort | readGrant | readNotices | readAttention | ackAttention | readCause | forceRetire | clearLoop | holdOn | holdOff |
      setContinuity => exact ⟨_, rfl⟩
  case restart => exact absurd rfl notRestart
  all_goals cases isCommand

theorem command_startUp {s : State} (starting : s.restart.startUp = .settling ∨ s.restart.startUp = .restarting)
    (take : State → State × Response) : s.command take = s.setBuffers none none := by
  rcases starting with startUp | startUp <;> rw [State.command, startUp]

theorem command_held {s : State} (off : s.restart.startUp = .supplyHeld) (take : State → State × Response) : s.command take = s := by
  rw [State.command, off]

theorem exec_restart (s : State) : exec .restart s = .next s.restartCommand := rfl

theorem restartCommand_startUp {s : State} (starting : s.restart.startUp = .settling ∨ s.restart.startUp = .restarting) :
    s.restartCommand = (s.addCause .command).setBuffers none (some okEmpty) := by
  rcases starting with startUp | startUp <;> simp only [State.restartCommand, State.restartRequest, startUp]

theorem exec_writeTransfer {bytes : List Byte} (carries : bytes ≠ []) (s : State) : exec (.writeTransfer bytes) s = .next (s.write bytes) :=
  congrArg Host.Outcome.next (if_neg carries)

theorem write_startUp {s : State} {bytes : List Byte} (starting : s.restart.startUp = .settling ∨ s.restart.startUp = .restarting) :
    s.write bytes = if parseCommand bytes = some .restart then s.restartCommand else s.setBuffers none none := by
  unfold State.write
  by_cases restart : parseCommand bytes = some .restart
  · rcases starting with startUp | startUp <;> simp only [startUp, restart, if_true]
  · rw [if_neg restart]
    rcases starting with startUp | startUp <;> rw [startUp] <;> split <;> simp_all

/-- Settles O32: the port's state and the form checks decide what the buffers hold. -/
theorem writeTransferPlaced : Obligations.WriteTransferPlaced := by
  unfold Obligations.WriteTransferPlaced
  intro s bytes buffers
  refine ⟨rfl, fun carries => ⟨fun running good => ?waits, fun running bad => ⟨?refused, ?formError⟩,
    fun starting => ⟨fun restart => ?restart, fun other => ?discarded⟩, fun off => ?off⟩⟩
  case waits =>
    obtain ⟨c, parsed⟩ := Option.isSome_iff_exists.mp good
    rw [exec_writeTransfer carries, State.write, running, parsed]
    rfl
  case refused =>
    rw [exec_writeTransfer carries, State.write, running, bad]
    rfl
  case formError =>
    change execCommandFormError bytes s = _
    rw [execCommandFormError, if_pos ⟨carries, bad⟩, command_running running]
    rfl
  case restart => rw [exec_writeTransfer carries, write_startUp starting, if_pos restart, exec_restart]
  case discarded =>
    rw [exec_writeTransfer carries, write_startUp starting, if_neg other]
    rfl
  case off => rw [exec_writeTransfer carries, State.write, off]

theorem readBytes_held {s : State} (off : s.restart.startUp = .supplyHeld) (n : Nat) : s.readBytes n = [] := by
  rw [State.readBytes, if_pos off]

theorem readBytes_length {s : State} (on : s.restart.startUp ≠ .supplyHeld) (n : Nat) : (s.readBytes n).length = n := by
  rw [State.readBytes, if_neg on, List.length_take, List.length_append, List.length_replicate]
  omega

theorem readBytes_getElem? {s : State} (on : s.restart.startUp ≠ .supplyHeld) {n i : Nat} (inside : i < n) :
    (s.readBytes n)[i]? = some (s.readTransfer[i]?.getD 0xFF#8) := by
  rw [State.readBytes, if_neg on, List.getElem?_take_of_lt inside]
  by_cases first : i < s.readTransfer.length
  · rw [List.getElem?_append_left first, List.getElem?_eq_getElem first]
    rfl
  · rw [List.getElem?_append_right (by omega), List.getElem?_replicate_of_lt (by omega), List.getElem?_eq_none (by omega)]
    rfl

/-- A command that waits at a RUNNING card is queued by an idle step (log 4). -/
theorem waiting_due {s : State} {bytes : List Byte} {c : Instr} (running : s.restart.startUp = .running) (waiting : s.maint.waiting = some bytes)
    (parsed : parseCommand bytes = some c) : c ∈ s.tick.due := by
  have runs : s.tick.isRunning = true := isRunning_iff.mpr (by rw [tick_restart]; exact running)
  refine (mem_due_running runs).mpr (.inr (.inr (.inr (.inr ?_))))
  rw [State.dueCommand, tick_maint, waiting, Option.mem_toList]
  exact parsed

/-- Settles O34: the response comes first, 0xFF after it; in start-up a command empties the buffers and only RESTART answers. -/
theorem readTransferAndStartUpCommands : Obligations.ReadTransferAndStartUpCommands := by
  unfold Obligations.ReadTransferAndStartUpCommands
  refine ⟨fun s => ⟨fun r running response => ?response, fun running empty => ?empty, fun starting => ?starting, fun off => ⟨?off, readBytes_held off⟩,
    fun on n => ⟨readBytes_length on n, fun i => readBytes_getElem? on⟩, fun bytes c running idle waiting parsed => ?waiting⟩,
    fun s c isCommand => ⟨fun starting => ⟨fun other => ?discarded, ?restart⟩, fun off => ?held⟩⟩
  case response => rw [State.readTransfer, running, response]; rfl
  case empty => rw [State.readTransfer, running, empty]; rfl
  case starting => rcases starting with startUp | startUp <;> rw [State.readTransfer, startUp] <;> rfl
  case off => rw [State.readTransfer, off]
  case waiting => exact ⟨s.idle, step_idle idle, waiting_due running waiting parsed⟩
  case discarded =>
    obtain ⟨take, row⟩ := exec_maintenance s isCommand other
    rw [row, command_startUp starting]
    rfl
  case restart => rw [exec_restart, restartCommand_startUp starting]; rfl
  case held =>
    by_cases restart : c = .restart
    · rw [restart, exec_restart, State.restartCommand, off]
    · obtain ⟨take, row⟩ := exec_maintenance s isCommand restart
      rw [row, command_held off]

/-! ### Reading commands -/

theorem readCell_in {n : Nat} (s : State) (i : Fin n) (payload : Fin n → List Byte) :
    s.readCell (inBank n i.val) payload = (s, Response.ok (payload i)) := by rw [inBank_val]; rfl

theorem readCell_out {n k : Nat} (s : State) (payload : Fin n → List Byte) (outside : n ≤ k) :
    s.readCell (inBank n k) payload = (s, Response.bare .badValue) := by rw [inBank_out outside]; rfl

theorem slotNumbered_slot (slot : SlotIx) : slotNumbered (slot.val + 1) = some slot := by
  rw [slotNumbered, if_neg (Nat.succ_ne_zero _), Nat.add_sub_cancel, inBank_val]

theorem slotNumbered_out {n : Nat} (outside : n = 0 ∨ 12 < n) : slotNumbered n = none := by
  unfold slotNumbered
  split
  · rfl
  · exact inBank_out (by omega)

/-- Settles O35: each reading command leaves the card as it is and answers from it, cell by cell. -/
theorem readCommandsAnswered : Obligations.ReadCommandsAnswered := by
  unfold Obligations.ReadCommandsAnswered
  intro s running answered refused
  refine ⟨?_, ?_, ?_, ?_, fun i => ?_, fun k => ?_, fun p => ?_, fun p => ?_, fun slot => ?_, fun n outside => ?_, fun n outside => ?_,
    fun n outside => ?_, fun n outside => ?_, fun n outside => ?_⟩
  · exact exec_command_running running rfl rfl
  · exact exec_command_running running rfl rfl
  · exact exec_command_running running rfl rfl
  · exact exec_command_running running rfl rfl
  · exact exec_command_running (c := .readPlan i.val) running rfl (readCell_in s i _)
  · exact exec_command_running (c := .readLoop k.val) running rfl (readCell_in s k _)
  · exact exec_command_running (c := .readPort p.val) running rfl (readCell_in s p _)
  · exact exec_command_running (c := .readGrant (some p.val)) running rfl (readCell_in s p _)
  · exact exec_command_running (c := .readNotices (slot.val + 1)) running rfl (by rw [slotNumbered_slot]; rfl)
  · exact exec_command_running (c := .readPlan n) running rfl (readCell_out s _ outside)
  · exact exec_command_running (c := .readLoop n) running rfl (readCell_out s _ outside)
  · exact exec_command_running (c := .readPort n) running rfl (readCell_out s _ outside)
  · exact exec_command_running (c := .readGrant (some n)) running rfl (readCell_out s _ outside)
  · exact exec_command_running (c := .readNotices n) running rfl (by rw [slotNumbered_out outside]; rfl)

/-! ### SET_REFERENCE (07 R137) -/

theorem nominalInRange_iff (ref : Ref) (nominal : Nat) :
    nominalInRange ref nominal = true ↔ if ref = .xo then nominal = 40000000 else 1000 ≤ nominal ∧ nominal ≤ 100000000 := by
  cases ref <;> simp [nominalInRange]

/-- Settles O41: each check in turn, then the record judged afresh and the change taken by the selector. -/
theorem referenceSet : Obligations.ReferenceSet := by
  unfold Obligations.ReferenceSet
  intro s ref nominal enabled running answered r inRange rate x asked
  have row : exec (.setReference ref nominal enabled) s = .next (s.command (fun s => s.takeSetReference ref nominal enabled)) := rfl
  have judged : { r with nominal := nominal, enabled := enabled }.judgeAfresh ref rate = x := by
    rw [RefRec.judgeAfresh_eq]
    by_cases on : enabled = false
    · simp only [x, on, if_true]
    · rw [if_neg on]
      simp only [x, if_neg on, Bool.eq_true_of_not_eq_false on]
  refine ⟨fun outside => ?badValue, fun inside station other => ?active, fun inside same on => ?unchanged, fun inside free changed => ?taken⟩
  case badValue =>
    refine exec_command_running running row ?_
    rw [State.takeSetReference, if_pos (by rw [← Bool.not_eq_true, nominalInRange_iff]; exact outside)]
    rfl
  all_goals have valid : ¬ nominalInRange ref nominal = false := by rw [Bool.not_eq_false, nominalInRange_iff]; exact inside
  case active =>
    refine exec_command_running running row ?_
    rw [State.takeSetReference, if_neg valid, if_pos ⟨station, other⟩]
    rfl
  case unchanged =>
    refine exec_command_running running row ?_
    rw [State.takeSetReference, if_neg valid, if_neg (fun active => active.2 same), if_pos ⟨same, on⟩]
    rfl
  case taken =>
    refine exec_command_running running row ?_
    rw [State.takeSetReference, if_neg valid, if_neg (by rintro ⟨active, other⟩; exact free.elim (· active) other), if_neg (by tauto), judged]
    rfl

/-! ### WRITE_PLAN and ERASE_PLAN (02 R33, R34) -/

theorem planInRange_iff (a : PlanArgs) : planInRange a = true ↔
    a.r ≤ 16 ∧ a.n ≤ 4095 ∧ a.p ≤ 3 ∧ a.e ≤ 2 ∧ a.l ≤ 255 ∧ (if a.timed then 1 ≤ a.settle ∧ a.settle ≤ 1000 else a.settle = 0) := by
  cases timed : a.timed <;> simp [planInRange, timed, and_assoc]

section PlanCommands

variable {s : State} {a : PlanArgs} {i : EntryIx}

theorem takeWritePlan_badValue (bad : 32 ≤ a.entry ∨ planInRange a = false) : s.takeWritePlan a = (s, Response.bare .badValue) := by
  unfold State.takeWritePlan
  rcases bad with outside | range
  · rw [inBank_out outside]
  · split
    · rfl
    · rw [if_pos range]

theorem takeWritePlan_inUse (entry : a.entry = i.val) (range : planInRange a = true) (used : s.loopsOnEntry i ≠ []) :
    s.takeWritePlan a = (s, { status := .inUse, payload := loopList (s.loopsOnEntry i) }) := by
  rw [State.takeWritePlan, entry, inBank_val]
  simp only [range, Bool.true_eq_false, if_false, if_pos used]

theorem takeWritePlan_ok (entry : a.entry = i.val) (range : planInRange a = true) (free : s.loopsOnEntry i = []) :
    s.takeWritePlan a = ({ s with plan := wr s.plan i (some (planEntryOf a s.station.rate)) },
      Response.ok [toByte (planStatusCode (some (planEntryOf a s.station.rate)))]) := by
  rw [State.takeWritePlan, entry, inBank_val]
  simp only [range, Bool.true_eq_false, if_false, free, ne_eq, not_true]

theorem takeErasePlan_badValue {n : Nat} (outside : 32 ≤ n) : s.takeErasePlan n = (s, Response.bare .badValue) := by
  rw [State.takeErasePlan, inBank_out outside]

theorem takeErasePlan_inUse (used : s.loopsOnEntry i ≠ []) :
    s.takeErasePlan i.val = (s, { status := .inUse, payload := loopList (s.loopsOnEntry i) }) := by
  rw [State.takeErasePlan, inBank_val]
  simp only [if_pos used]

theorem takeErasePlan_ok (free : s.loopsOnEntry i = []) : s.takeErasePlan i.val = ({ s with plan := wr s.plan i none }, Response.ok []) := by
  rw [State.takeErasePlan, inBank_val]
  simp only [free, ne_eq, not_true, if_false]

end PlanCommands

/-- Settles O45: the entry number and the fields, then the loops that run on the entry. -/
theorem planWrittenAndErased : Obligations.PlanWrittenAndErased := by
  unfold Obligations.PlanWrittenAndErased
  intro s a running answered inRange mode fields written users
  have write {t : State} {st payload} (answer : s.takeWritePlan a = (t, { status := st, payload := payload })) :
      exec (.writePlan a) s = answered t st payload := exec_command_running running (take := fun s => s.takeWritePlan a) rfl answer
  have erase {t : State} {st payload} (answer : s.takeErasePlan a.entry = (t, { status := st, payload := payload })) :
      exec (.erasePlan a.entry) s = answered t st payload := exec_command_running running (take := fun s => s.takeErasePlan a.entry) rfl answer
  refine ⟨fun bad => write (takeWritePlan_badValue ?bad), fun outside => erase (takeErasePlan_badValue outside),
    fun i entry => ⟨fun used => ⟨fun range => write ?writeInUse, erase ?eraseInUse⟩, fun free => ⟨fun range => write ?written, erase ?erased⟩⟩⟩
  case bad => exact bad.imp_right fun range => by rw [← Bool.not_eq_true, planInRange_iff]; exact range
  case writeInUse => exact takeWritePlan_inUse entry ((planInRange_iff a).mpr range) used
  case eraseInUse => rw [entry]; exact takeErasePlan_inUse used
  case written => exact takeWritePlan_ok entry ((planInRange_iff a).mpr range) free
  case erased => rw [entry]; exact takeErasePlan_ok free

/-! ### Settings, attention and the cause record -/

theorem causesBytes_eq (c : Causes) : c.bytes = listBytes
    ([(c.power, 0x00#8), (c.supply, 0x01#8), (c.panel, 0x02#8), (c.command, 0x03#8), (c.chassis, 0x04#8), (c.continued, 0x05#8)].filterMap
      (fun m => if m.1 then some [m.2] else none)) := by
  rw [Causes.bytes, ← List.filterMap_eq_map, List.filterMap_filter]
  rfl

theorem takeSetLimits_badValue {acquire holdover : Nat} (s : State)
    (outside : acquire < 10 ∨ 5000 < acquire ∨ holdover < 1 ∨ 3600 < holdover) :
    s.takeSetLimits acquire holdover = (s, Response.bare .badValue) := if_pos outside

theorem takeSetLimits_ok {acquire holdover : Nat} (s : State) (acquireRange : 10 ≤ acquire ∧ acquire ≤ 5000)
    (holdoverRange : 1 ≤ holdover ∧ holdover ≤ 3600) : s.takeSetLimits acquire holdover =
      ({ s with loops := { s.loops with acquireLimit := acquire, holdoverLimit := holdover } }, Response.ok (be16 acquire ++ be16 holdover)) :=
  if_neg (by omega)

theorem takeClearLoop_badValue {n : Nat} (s : State) (outside : 6 ≤ n) : s.takeClearLoop n = (s, Response.bare .badValue) := by
  rw [State.takeClearLoop, inBank_out outside]

theorem takeClearLoop_notQuarantined {s : State} {k : LoopIx} (free : (s.loop k).failed = none) :
    s.takeClearLoop k.val = (s, Response.bare .notQuarantined) := by
  rw [State.takeClearLoop, inBank_val]
  simp only [free, if_true]

theorem takeClearLoop_ok {s : State} {k : LoopIx} (quarantined : (s.loop k).failed ≠ none) :
    s.takeClearLoop k.val = (s.setLoop k { s.loop k with failed := none }, Response.ok []) := by
  rw [State.takeClearLoop, inBank_val]
  simp only [if_neg quarantined]

theorem pendingCause_iff {a : Attention} {c : Cause} : a.pendingCause c = true ↔ rd a.counts c.index ≠ 0 := by
  rw [Attention.pendingCause, decide_eq_true_iff, Nat.pos_iff_ne_zero]

theorem acknowledge_idle {a : Attention} {c : Cause} (none' : rd a.counts c.index = 0) : a.acknowledge c = a :=
  if_neg (fun pending => pendingCause_iff.mp pending none')

theorem acknowledge_pending {a : Attention} {c : Cause} (pending : rd a.counts c.index ≠ 0) : a.acknowledge c =
    Attention.fillLatch { counts := wr a.counts c.index 0, latched := if a.latched = some c then none else a.latched } :=
  if_pos (pendingCause_iff.mpr pending)

theorem fillLatch_counts (a : Attention) : a.fillLatch.counts = a.counts := by
  unfold Attention.fillLatch
  split <;> rfl

theorem fillLatch_latched {a : Attention} {c : Cause} (latched : a.latched = some c) : a.fillLatch = a := by
  rw [Attention.fillLatch, latched]

theorem fillLatch_empty {a : Attention} (empty : a.latched = none) : a.fillLatch.latched =
    [Cause.stationNone, .loopFailed, .grantStranded, .stationSwitched, .referenceQualified].find? (fun x => decide (0 < rd a.counts x.index)) := by
  rw [Attention.fillLatch, empty]
  rfl

theorem acknowledge_counts {a : Attention} {c : Cause} (pending : rd a.counts c.index ≠ 0) :
    a.acknowledge c = { counts := wr a.counts c.index 0, latched := (a.acknowledge c).latched } := by
  have counts : (a.acknowledge c).counts = wr a.counts c.index 0 := by rw [acknowledge_pending pending, fillLatch_counts]
  rw [← counts]

theorem latchedByte_eq (a : Attention) : latchedByte a = match a.latched with
    | some l => toByte (Cause.index l).val
    | none => 0xFF#8 := by
  unfold latchedByte
  cases a.latched <;> rfl

theorem takeAckAttention_eq (s : State) (c : Cause) : s.takeAckAttention c =
    ({ s with maint := { s.maint with attention := s.maint.attention.acknowledge c } },
     Response.ok [match (s.maint.attention.acknowledge c).latched with
       | some l => toByte (Cause.index l).val
       | none => 0xFF#8]) := by
  rw [State.takeAckAttention, latchedByte_eq]

/-- Settles O46: each setting is the one field its command names. -/
theorem settingsTaken : Obligations.SettingsTaken := by
  unfold Obligations.SettingsTaken
  intro s running answered bit
  have flag (b : Bool) : toByte (codeBool b) = bit b := by cases b <;> rfl
  refine ⟨fun acquire holdover => ⟨fun outside => ?_, fun a0 a1 h0 h1 => ?_⟩, fun n outside => ?_, fun k => ⟨fun free => ?_, fun quarantined => ?_⟩,
    fun allow => ⟨?_, ?_⟩, fun on => ?_, ⟨fun hold => ?_, fun released => ?_⟩, fun c => ⟨(s.maint.attention.acknowledge c).latched, fun none' => ?_,
    fun pending => ⟨?_, fun l latched other => ?_, fun latched => ?_⟩⟩⟩
  · exact exec_command_running (c := .setLimits acquire holdover) running rfl (takeSetLimits_badValue s outside)
  · exact exec_command_running (c := .setLimits acquire holdover) running rfl (takeSetLimits_ok s ⟨a0, a1⟩ ⟨h0, h1⟩)
  · exact exec_command_running (c := .clearLoop n) running rfl (takeClearLoop_badValue s outside)
  · exact exec_command_running (c := .clearLoop k.val) running rfl (takeClearLoop_notQuarantined free)
  · exact exec_command_running (c := .clearLoop k.val) running rfl (takeClearLoop_ok quarantined)
  · rw [← flag allow]
    exact exec_command_running (c := .holdOn allow) running rfl rfl
  · exact exec_command_running (c := .holdOff allow) running rfl rfl
  · rw [← flag on]
    exact exec_command_running (c := .setContinuity on) running rfl rfl
  · refine exec_command_running (c := .readCause) running rfl ?_
    rw [State.takeReadCause, if_pos hold, causesBytes_eq]
    rfl
  · refine exec_command_running (c := .readCause) running rfl ?_
    rw [State.takeReadCause, if_neg (by rw [released]; exact Bool.false_ne_true), causesBytes_eq]
    rfl
  · have idle := acknowledge_idle none'
    refine ⟨exec_command_running (c := .ackAttention c) running rfl ((takeAckAttention_eq s c).trans ?_), congrArg Attention.latched idle⟩
    rw [idle]
    rfl
  · refine exec_command_running (c := .ackAttention c) running rfl ((takeAckAttention_eq s c).trans ?_)
    rw [acknowledge_counts pending]
    rfl
  · have kept : (if s.maint.attention.latched = some c then none else s.maint.attention.latched) = some l := by
      rw [if_neg (by rw [latched]; exact fun same => other (Option.some.inj same)), latched]
    rw [acknowledge_pending pending, fillLatch_latched kept, kept]
  · rw [acknowledge_pending pending, fillLatch_empty (if_pos latched)]

end Sys2Proof.Machine

/-! The monitors and the station selector (chapter 7), and what a change of the station reference does at the loops and the ports. -/

namespace Sys2Proof.Machine

/-! ### The restore candidate (07 R134) -/

/-- The candidate is kept with its timer while it is the same, and starts at the full delay when it is another. -/
theorem evaluate_restore (b : StationBlock) :
    (b.mode = .nonrevertive ∨ b.station = none → b.evaluate.restore = none) ∧
    (∀ a, b.mode = .revertive → b.station = some a →
      ((b.priority.takeWhile (fun r => r != a)).find? b.qualified = none → b.evaluate.restore = none) ∧
      (∀ c, (b.priority.takeWhile (fun r => r != a)).find? b.qualified = some c →
        (∀ r, b.restore = some r → r.candidate = c → b.evaluate.restore = some r) ∧
        ((∀ r, b.restore = some r → r.candidate ≠ c) →
          b.evaluate.restore = some { candidate := c, remaining := b.restoreDelay * 1000 }))) := by
  have none' : b.candidate = none → b.evaluate.restore = none := fun absent => by simp only [StationBlock.evaluate, absent]
  have found {a : Ref} (mode : b.mode = .revertive) (station : b.station = some a) :
      b.candidate = (b.priority.takeWhile (fun r => r != a)).find? b.qualified := by simp only [StationBlock.candidate, mode, station]
  refine ⟨fun unused => none' ?_, fun a mode station => ⟨fun absent => none' ((found mode station).trans absent), fun c candidate =>
    ⟨fun r pending same => ?_, fun other => ?_⟩⟩⟩
  · rcases unused with mode | station
    · simp only [StationBlock.candidate, mode]
    · cases mode : b.mode <;> simp only [StationBlock.candidate, mode, station]
  · simp only [StationBlock.evaluate, (found mode station).trans candidate, pending, if_pos same]
  · cases pending : b.restore with
    | none => simp only [StationBlock.evaluate, (found mode station).trans candidate, pending]
    | some r => simp only [StationBlock.evaluate, (found mode station).trans candidate, pending, if_neg (other r pending)]

theorem evaluate_eq (b : StationBlock) : b.evaluate = { b with restore := b.evaluate.restore } := rfl

theorem takeSetPriority_badValue {a b c : Ref} {delay : Nat} (s : State) (mode : SelMode)
    (bad : ¬ (a ≠ b ∧ b ≠ c ∧ a ≠ c) ∨ delay < 1 ∨ 600 < delay) : s.takeSetPriority a b c mode delay = (s, Response.bare .badValue) :=
  if_pos (by tauto)

theorem takeSetPriority_ok {a b c : Ref} {delay : Nat} (s : State) (mode : SelMode) (named : a ≠ b ∧ b ≠ c ∧ a ≠ c) (low : 1 ≤ delay)
    (high : delay ≤ 600) : s.takeSetPriority a b c mode delay =
      ({ s with station := ({ s.station with priority := [a, b, c], mode := mode, restoreDelay := delay } : StationBlock).evaluate },
       Response.ok ({ s.station with priority := [a, b, c], mode := mode, restoreDelay := delay } : StationBlock).evaluate.selectorBytes) :=
  if_neg (by
    rintro (same | same | same | short | long)
    · exact named.1 same
    · exact named.2.1 same
    · exact named.2.2 same
    · omega
    · omega)

/-- Settles O42: the checks of SET_PRIORITY, then the candidate evaluated against the values it sets. -/
theorem selectorSettings : Obligations.SelectorSettings := by
  unfold Obligations.SelectorSettings
  intro s a b c mode delay period running answered named
  have asked {t : State} {st payload} (answer : s.takeSetPriority a b c mode delay = (t, { status := st, payload := payload })) :
      exec (.setPriority a b c mode delay) s = answered t st payload :=
    exec_command_running running (take := fun s => s.takeSetPriority a b c mode delay) rfl answer
  refine ⟨fun bad => asked (takeSetPriority_badValue s mode bad), fun distinct low high => ?taken, exec_command_running running rfl rfl⟩
  case taken =>
    obtain ⟨unused, candidate⟩ := evaluate_restore { s.station with priority := [a, b, c], mode := mode, restoreDelay := delay }
    exact ⟨_, asked (takeSetPriority_ok s mode distinct low high), unused, candidate⟩

/-! ### Attention causes raised (08 R149) -/

theorem causeIndex_inj {c d : Cause} : c.index = d.index ↔ c = d := by cases c <;> cases d <;> simp [Cause.index]

theorem raise_count (a : Attention) (c d : Cause) : rd (a.raise d).counts c.index =
    if c = d then min 255 (rd a.counts c.index + 1) else rd a.counts c.index := by
  by_cases same : c = d
  · subst same
    rw [Attention.raise, rd_upd_same, if_pos rfl]
  · rw [Attention.raise, rd_upd_ne _ _ _ _ (fun index => same (causeIndex_inj.mp index)), if_neg same]

theorem raiseAll_count (causes : List Cause) (a : Attention) (c : Cause) : rd (causes.foldl Attention.raise a).counts c.index =
    if causes.count c = 0 then rd a.counts c.index else min 255 (rd a.counts c.index + causes.count c) := by
  induction causes generalizing a with
  | nil => rfl
  | cons d causes ih =>
    rw [List.foldl_cons, ih, raise_count, List.count_cons]
    by_cases same : c = d
    · subst same
      rw [if_pos rfl, if_pos (beq_self_eq_true c), if_neg (Nat.succ_ne_zero _)]
      split <;> omega
    · have other : (d == c) = false := beq_false_of_ne (Ne.symm same)
      simp only [other, Bool.false_eq_true, if_false, if_neg same, Nat.add_zero]

theorem raiseAll_latched (causes : List Cause) (a : Attention) : (causes.foldl Attention.raise a).latched = a.latched := by
  induction causes generalizing a with
  | nil => rfl
  | cons d causes ih => exact ih (a.raise d)

/-! ### The change of the station reference (07 R132, R135; 04 R85) -/

theorem stationChange_cause (old new : Option Ref) : (stationChange old new).map StationChange.cause =
    if new = old then none else if new.isSome = true then some .stationSwitched else some .stationNone := by
  cases old with
  | none => cases new <;> rfl
  | some a =>
    cases new with
    | none => rfl
    | some b =>
      by_cases same : a = b
      · subst same; simp [stationChange]
      · simp [stationChange, same, Ne.symm same, StationChange.cause]

theorem stationChange_self (r : Option Ref) : stationChange r r = none := by
  cases r with
  | none => rfl
  | some r => exact if_pos rfl

theorem changeStation_attention (s : State) (new : Option Ref) : (s.changeStation new).maint.attention =
    ((stationChange s.station.station new).map StationChange.cause).toList.foldl Attention.raise s.maint.attention := by
  unfold State.changeStation
  cases stationChange s.station.station new <;> rfl

theorem changeStation_unchanged {s : State} {new : Option Ref} (same : stationChange s.station.station new = none) : s.changeStation new = s := by
  rw [State.changeStation, same]

theorem changeStation_loops {s : State} {new : Option Ref} {c : StationChange} (change : stationChange s.station.station new = some c) :
    (s.changeStation new).loops = s.loops.stationChanged c := by
  rw [State.changeStation, change]
  rfl

theorem changeStation_switch {s : State} {new : Option Ref} {c : StationChange} (change : stationChange s.station.station new = some c) :
    (s.changeStation new).switch =
      (s.switch.recoverFrom s (s.loopsAt new c)).advanceAll (s.loops.stationChanged c).loops new := by
  rw [State.changeStation, change]
  rfl

/-- One port at a change of the station reference: a source that drives edges again begins a count, and a switch goes on as far as it can. -/
theorem changeStation_port {s : State} {new : Option Ref} {c : StationChange} (change : stationChange s.station.station new = some c)
    (p : PortIx) :
    let r := rd s.switch.ports p
    let back := silentSource s.loops.loops s.station.station r.current && !silentSource (s.loops.stationChanged c).loops new r.current
    let r' := if back && !r.inStasis then { r with count := 0, origin := .begun s.switch.starts } else r
    rd (s.changeStation new).switch.ports p = (r'.advance (s.loops.stationChanged c).loops new).1 ∧
    rd (s.changeStation new).switch.reports p = rd s.switch.reports p ++ (r'.advance (s.loops.stationChanged c).loops new).2 := by
  intro r back r'
  have recovered : (rd (s.switch.recoverFrom s (s.loopsAt new c)).ports p = r') ∧
      rd (s.switch.recoverFrom s (s.loopsAt new c)).reports p = rd s.switch.reports p := by
    have port := atAllPorts_port s.switch (PortRec.recover (fun src => silentSource s.loops.loops s.station.station src &&
      !silentSource (s.loops.stationChanged c).loops new src) (.begun s.switch.starts)) p
    refine ⟨port.1.trans ?_, port.2.trans ?_⟩
    · exact apply_ite Prod.fst _ _ _
    · unfold PortRec.recover
      split <;> exact List.append_nil _
  rw [changeStation_switch change, SwitchUnit.advanceAll]
  have port := atAllPorts_port (s.switch.recoverFrom s (s.loopsAt new c)) (PortRec.advance (s.loops.stationChanged c).loops new) p
  rw [recovered.1, recovered.2] at port
  exact port

/-- The REFERENCE_QUALIFIED raises of a change at the monitors. -/
theorem raiseEntered_eq (entered : List Ref) (s : State) : entered.foldl (fun s _ => s.raiseCause .referenceQualified) s =
    { s with maint := { s.maint with
        attention := (entered.map (fun _ => Cause.referenceQualified)).foldl Attention.raise s.maint.attention } } := by
  induction entered generalizing s with
  | nil => rfl
  | cons r entered ih => exact ih (s.raiseCause .referenceQualified)

/-- The card when the selector makes its choice: the monitors changed and REFERENCE_QUALIFIED raised. -/
def State.judged (s : State) (after : StationBlock) : State :=
  { s with station := after, maint := { s.maint with
      attention := ((s.station.entered after).map (fun _ => Cause.referenceQualified)).foldl Attention.raise s.maint.attention } }

theorem judged_switch (s : State) (after : StationBlock) : (s.judged after).switch = s.switch := rfl

theorem judged_loops (s : State) (after : StationBlock) : (s.judged after).loops = s.loops := rfl

theorem judged_station (s : State) (after : StationBlock) : (s.judged after).station = after := rfl

theorem monitorsChange_eq (s : State) (after : StationBlock) :
    s.monitorsChange after = (((s.judged after).changeStation after.choice).evaluateRestore).fillLatch := by
  unfold State.monitorsChange
  rw [raiseEntered_eq]
  rfl

/-- The causes that a change at the monitors raises (07 R130, R135). -/
def StationBlock.raises (before after : StationBlock) : List Cause :=
  (before.entered after).map (fun _ => Cause.referenceQualified) ++ ((stationChange after.station after.choice).map StationChange.cause).toList

theorem monitorsChange_attention (s : State) (after : StationBlock) : (s.monitorsChange after).maint.attention =
    ((s.station.raises after).foldl Attention.raise s.maint.attention).fillLatch := by
  rw [monitorsChange_eq, StationBlock.raises, List.foldl_append]
  exact congrArg Attention.fillLatch (changeStation_attention (s.judged after) after.choice)

theorem raises_count (before after : StationBlock) (c : Cause) : (before.raises after).count c =
    if c = .referenceQualified then (before.entered after).length
    else if c = .stationSwitched then (if after.choice ≠ after.station ∧ after.choice.isSome = true then 1 else 0)
    else if c = .stationNone then (if after.choice ≠ after.station ∧ after.choice = none then 1 else 0)
    else 0 := by
  rw [StationBlock.raises, List.count_append, stationChange_cause]
  have qualified (d : Cause) : ((before.entered after).map (fun _ => Cause.referenceQualified)).count d =
      if d = .referenceQualified then (before.entered after).length else 0 := by
    rw [List.map_const', List.count_replicate]
    by_cases same : d = .referenceQualified
    · rw [same]; rfl
    · rw [if_neg same, if_neg (by rw [beq_iff_eq]; exact Ne.symm same)]
  rw [qualified]
  by_cases same : after.choice = after.station
  · cases c <;> simp [same]
  · cases choice : after.choice with
    | none => rw [choice] at same; cases c <;> simp [same]
    | some r => rw [choice] at same; cases c <;> simp [same]

theorem choice_kept {b : StationBlock} {r : Ref} (station : b.station = some r) (qualified : b.qualified r = true) : b.choice = some r := by
  simp only [StationBlock.choice, station, qualified, if_true]

theorem choice_best {b : StationBlock} (lost : b.station = none ∨ ∃ r, b.station = some r ∧ b.qualified r = false) :
    b.choice = b.priority.find? b.qualified := by
  rcases lost with station | ⟨r, station, unqualified⟩
  · simp only [StationBlock.choice, station]; rfl
  · simp only [StationBlock.choice, station, unqualified, Bool.false_eq_true, if_false]; rfl

/-- Settles O37: the choice, the candidate, then the loops, the ports and the causes of the change. -/
theorem selectorTakesChange : Obligations.SelectorTakesChange := by
  unfold Obligations.SelectorTakesChange
  intro s after t qualified entered raises
  have station : t.station = ({ after with station := after.choice } : StationBlock).evaluate := monitorsChange_station s after
  have choice : t.station.station = after.choice := congrArg StationBlock.station station
  have switch : t.switch = ((s.judged after).changeStation after.choice).switch := by rw [show t = _ from monitorsChange_eq s after]; rfl
  have loops : t.loops = ((s.judged after).changeStation after.choice).loops := by rw [show t = _ from monitorsChange_eq s after]; rfl
  obtain ⟨unused, candidate⟩ := evaluate_restore { after with station := after.choice }
  refine ⟨fun r here good => choice.trans (choice_kept here good), fun lost => choice.trans (choice_best lost), fun none' => ?unused,
    fun a mode chosen => ?candidate, ?station, fun same => ?same, fun c change => ?change, fun c => ?counts, fun c latched => ?latched,
    fun empty => ?filled, monitorsChange_frame s after⟩
  case unused => rw [station]; exact unused (none'.imp_right fun none' => choice.symm.trans none')
  case candidate => rw [station]; exact candidate a mode (choice.symm.trans chosen)
  case station => rw [station]; rfl
  case same =>
    have unchanged := changeStation_unchanged (s := s.judged after)
      (show stationChange after.station after.choice = none by rw [choice.symm.trans same]; exact stationChange_self _)
    rw [switch, loops, unchanged]
    exact ⟨rfl, rfl⟩
  case change =>
    rw [choice] at change
    have changed : t.loops = s.loops.stationChanged c := loops.trans (changeStation_loops (s := s.judged after) change)
    rw [switch, changed, choice]
    refine ⟨rfl, fun p => ?_, ?_⟩
    · have port := changeStation_port (s := s.judged after) change p
      simp only [judged_switch, judged_loops, judged_station] at port
      exact port
    · rw [changeStation_switch (s := s.judged after) change, judged_switch]
      dsimp only [SwitchUnit.advanceAll, SwitchUnit.recoverFrom, SwitchUnit.atAllPorts, SwitchUnit.begun]
      exact ⟨rfl, rfl, rfl, rfl⟩
  case counts =>
    have raised : (s.station.raises after).count c = raises c := by
      rw [raises_count, ← choice, StationBlock.entered, ← List.countP_eq_length_filter]
      rfl
    rw [show t.maint.attention = _ from monitorsChange_attention s after, fillLatch_counts, raiseAll_count, raised]
  case latched =>
    have kept := (raiseAll_latched (s.station.raises after) s.maint.attention).trans latched
    rw [show t.maint.attention = _ from monitorsChange_attention s after, fillLatch_latched kept, kept]
  case filled =>
    have open' := (raiseAll_latched (s.station.raises after) s.maint.attention).trans empty
    rw [show t.maint.attention = _ from monitorsChange_attention s after, fillLatch_empty open', fillLatch_counts]

end Sys2Proof.Machine

/-! Loops at the station reference (chapter 3, section 3.5), the monitors' events (chapter 7) and the start-up events (chapter 11). -/

namespace Sys2Proof.Machine

/-- Settles O38: the start by the mode, the change by the state. -/
theorem loopAtStationReference : Obligations.LoopAtStationReference := by
  unfold Obligations.LoopAtStationReference
  refine ⟨fun limit station i settle => ?start, fun old new differ => if_neg differ, fun r => ⟨rfl, rfl, if_pos rfl, rfl⟩, fun u c k => ?controller,
    fun l limit => ?record⟩
  case start => cases station <;> exact ⟨rfl, rfl⟩
  case controller =>
    dsimp only [LoopController.stationChanged]
    exact ⟨rd_mapCells _ _ _, rd_mapCells _ _ _, rfl, rfl⟩
  case record =>
    intro full
    refine ⟨fun tracking => ?_, fun other => ?_, fun locked => ?_, fun either => ?_, fun holdover => ?_, fun rest => ?_, fun waiting => ?_,
      fun holdover => ⟨fun t mode => ?_, fun mode => ?_⟩, fun notWaiting notHoldover => ?_⟩
    · rw [LoopRec.stationChanged, if_pos tracking]
    · rw [LoopRec.stationChanged, if_neg other]
    · rw [LoopRec.stationChanged, locked]
    · rcases either with state | state <;> rw [LoopRec.stationChanged, state]
    · rw [LoopRec.stationChanged, holdover]
    · rcases rest with state | state <;> rw [LoopRec.stationChanged, state]
    · rw [LoopRec.stationChanged, waiting]
    · simp only [LoopRec.stationChanged, holdover, mode]
    · simp only [LoopRec.stationChanged, holdover, mode]
    · cases state : l.state
      case waiting => exact absurd state notWaiting
      case holdover => exact absurd state notHoldover
      all_goals rw [LoopRec.stationChanged, state]

/-! ### The monitors' events (07 R128 to R130, R134) -/

theorem RefRec.hasWindows_iff (r : RefRec) : r.hasWindows = true ↔
    r.state = .absent ∨ r.state = .outOfRange ∨ r.state = .qualifying ∨ r.state = .qualified := by
  cases state : r.state <;> simp [RefRec.hasWindows, state]

theorem RefRec.window_outOfRange {r : RefRec} {x : Int} (period : QualPeriod) (far : 100 < x.natAbs) :
    r.window period (.ppm x) = { r with lastError := some (.ppm x), state := .outOfRange, qualTimer := none } := if_pos far

theorem RefRec.window_begins {r : RefRec} {x : Int} (period : QualPeriod) (near : x.natAbs ≤ 100) (out : r.state = .absent ∨ r.state = .outOfRange) :
    r.window period (.ppm x) = { r with lastError := some (.ppm x), state := .qualifying, qualTimer := some (qualMs period) } := by
  rw [RefRec.window, if_neg (by omega)]
  rcases out with state | state <;> simp only [state]

theorem RefRec.window_goesOn {r : RefRec} {x : Int} (period : QualPeriod) (near : x.natAbs ≤ 100)
    (inside : r.state = .qualifying ∨ r.state = .qualified) : r.window period (.ppm x) = { r with lastError := some (.ppm x) } := by
  rw [RefRec.window, if_neg (by omega)]
  rcases inside with state | state <;> simp only [state]

theorem qualMs_eq (period : QualPeriod) : qualMs period = if period = .long then 1000 else 100 := by cases period <;> rfl

/-- Settles O39: a window and an expiry change one record, and the restore timer the station reference. -/
theorem monitorEvents : Obligations.MonitorEvents := by
  unfold Obligations.MonitorEvents
  intro s ref running r changed judged ms
  have period : qualMs s.station.period = ms := qualMs_eq _
  have window (notXo : ref ≠ .xo) (complete : judged) (e : WindowError) :
      exec (.referenceWindow ref e) s = changed (r.window s.station.period e) :=
    congrArg Host.Outcome.next (if_pos ⟨isRunning_iff.mpr running, notXo, (RefRec.hasWindows_iff _).mpr complete⟩)
  refine ⟨fun off e => ?noWindow, fun notXo complete => ⟨window notXo complete .noActivity, fun x far => ?far, fun x near => ⟨fun out => ?begins,
    fun inside => ?goesOn⟩⟩, fun qualifying zero released => ?qualified, fun not => ?notQualified, fun c restore released => ?restored,
    fun not => ?notRestored⟩
  case noWindow =>
    refine congrArg Host.Outcome.next (if_neg ?_)
    rintro ⟨-, notXo, complete⟩
    exact off.elim notXo fun unjudged => unjudged ((RefRec.hasWindows_iff _).mp complete)
  case far => rw [window notXo complete, RefRec.window_outOfRange _ far]
  case begins => rw [window notXo complete, RefRec.window_begins _ near out, period]
  case goesOn => rw [window notXo complete, RefRec.window_goesOn _ near inside]
  case qualified =>
    exact congrArg Host.Outcome.next (if_pos (qualificationOut_iff.mpr ⟨running, released, qualifying, zero⟩))
  case notQualified =>
    refine congrArg Host.Outcome.next (if_neg fun out => ?_)
    obtain ⟨-, released, qualifying, zero⟩ := qualificationOut_iff.mp out
    rcases not with state | timer | hold
    · exact state qualifying
    · exact timer zero
    · rw [hold] at released; cases released
  case restored =>
    have out : s.restoreOut = some c := by
      simp only [State.restoreOut, restore]
      exact if_pos ⟨isRunning_iff.mpr running, released, trivial⟩
    have station : ((s.changeStation (some c)).evaluateRestore).fillLatch.station = (s.changeStation (some c)).station.evaluate := rfl
    refine ⟨?_, by rw [station, changeStation_station, evaluate_eq]⟩
    change execRestoreTimerExpiry s = _
    rw [execRestoreTimerExpiry, out]
  case notRestored =>
    have still : s.restoreOut = none := by
      rw [← Option.not_isSome_iff_eq_none, restoreOut_isSome_iff]
      rintro ⟨-, released, x, pending, zero⟩
      rcases not with absent | ⟨y, there, counting⟩ | hold
      · rw [absent] at pending; cases pending
      · rw [there] at pending; cases pending; exact counting zero
      · rw [hold] at released; cases released
    change execRestoreTimerExpiry s = _
    rw [execRestoreTimerExpiry, still]

end Sys2Proof.Machine

/-! Restart requests, the supply and the start-up timers (chapter 11). -/

namespace Sys2Proof.Machine

/-! ### Restart requests (11 R186, R187, R189) -/

theorem moduleRestart_eq (s : State) (r : RestartCause) : s.moduleRestart r =
    { s with
      engine := GrantEngine.powerUp, notices := NoticeUnit.powerUp, links := fill 12 LinkRec.mute,
      loops := { LoopController.powerUp with acquireLimit := s.loops.acquireLimit, holdoverLimit := s.loops.holdoverLimit },
      switch := { SwitchUnit.powerUp with draws := s.switch.draws, starts := s.switch.starts },
      maint := { attention := Attention.powerUp, hold := false, allowAcks := false, waiting := none,
                 response := match r with
                   | .command => some okEmpty
                   | .panel => none
                   | .chassis => none },
      restart := { s.restart with startUp := .restarting, settleTimer := none, restartTimer := some 2, causes := s.restart.causes.add r } } := rfl

theorem restartRequest_running {s : State} (running : s.restart.startUp = .running) (r : RestartCause) : s.restartRequest r = s.moduleRestart r := by
  rw [State.restartRequest, running]

theorem restartRequest_starting {s : State} (starting : s.restart.startUp = .settling ∨ s.restart.startUp = .restarting) (r : RestartCause) :
    s.restartRequest r = s.addCause r := by
  rcases starting with startUp | startUp <;> rw [State.restartRequest, startUp]

theorem restartCommand_running {s : State} (running : s.restart.startUp = .running) : s.restartCommand = s.moduleRestart .command := by
  rw [State.restartCommand, restartRequest_running running, running]

theorem exec_panelRestart {s : State} (on : s.restart.startUp ≠ .supplyHeld) :
    exec .panelRestart s = .next ((s.restartRequest .panel).holdPanel true) := congrArg Host.Outcome.next (if_neg on)

theorem exec_panelRestartRelease {s : State} (on : s.restart.startUp ≠ .supplyHeld) :
    exec .panelRestartRelease s = .next (s.holdPanel false).afterRelease := congrArg Host.Outcome.next (if_neg on)

theorem exec_chassisResetRelease {s : State} (on : s.restart.startUp ≠ .supplyHeld) :
    exec .chassisResetRelease s = .next (s.holdChassis false).afterRelease := congrArg Host.Outcome.next (if_neg on)

theorem exec_chassisReset_off {s : State} (on : s.restart.startUp ≠ .supplyHeld) (continuity : s.restart.continuity = false) :
    exec .chassisReset s = .next ((s.restartRequest .chassis).holdChassis true) := by
  change execChassisReset s = _
  unfold execChassisReset
  rw [continuity]
  cases startUp : s.restart.startUp
  case supplyHeld => exact absurd startUp on
  all_goals rfl

theorem exec_chassisReset_on {s : State} (continuity : s.restart.continuity = true) :
    exec .chassisReset s = .next (if s.restart.startUp = .running then s.continueThrough else s) := by
  change execChassisReset s = _
  unfold execChassisReset
  rw [continuity]
  cases s.restart.startUp <;> rfl

theorem continueThrough_eq (s : State) : s.continueThrough =
    { s with
      links := mapCells (fun slot _ => { LinkRec.mute with listening := rd s.present slot }) s.links,
      notices := { s.notices with slots := mapCells (fun slot n =>
        if rd s.present slot then { n with continued := { pending := true, seq := n.continued.seq + 1 } } else n) s.notices.slots },
      restart := { s.restart with causes := { s.restart.causes with continued := true } } } := by
  rw [State.continueThrough, resetLinks_eq s.present s.links, raiseForPresent_eq]
  rfl

/-- A release of the one request that is held ends a start-up that waited for it (11 R186). -/
theorem afterRelease_waits {s : State} (waits : s.restart.startUp = .restarting ∧ s.restart.restartTimer = none ∧ s.restart.restartHeld = false) :
    s.afterRelease = s.endRestart := if_pos waits

theorem afterRelease_goesOn {s : State} (goesOn : s.restart.startUp ≠ .restarting ∨ s.restart.restartTimer ≠ none ∨ s.restart.restartHeld = true) :
    s.afterRelease = s := by
  refine if_neg ?_
  rintro ⟨restarting, out, released⟩
  rcases goesOn with startUp | timer | held
  · exact startUp restarting
  · exact timer out
  · rw [held] at released; cases released

/-- Settles O47: a request by the card's state, a release by what else is held. -/
theorem restartRequests : Obligations.RestartRequests := by
  unfold Obligations.RestartRequests
  intro s rested held added c starting
  have on (startUp : starting) : s.restart.startUp ≠ .supplyHeld := by
    rcases startUp with startUp | startUp <;> rw [startUp] <;> decide
  refine ⟨fun running => ⟨?command, ?panel, fun off => ?chassis, fun continuity => ?continued⟩,
    fun startUp => ⟨?panelAbsorbed, fun off => ?chassisAbsorbed, fun continuity => ?ignored⟩,
    fun off => ⟨congrArg _ (if_pos off), congrArg _ (if_pos off), ?chassisOff, congrArg _ (if_pos off)⟩,
    fun powered => ⟨fun goesOn => ?panelReleased, fun goesOn => ?chassisReleased⟩, fun restarting out => ⟨fun free => ?panelEnds, fun free => ?chassisEnds⟩⟩
  case command => rw [exec_restart, restartCommand_running running, moduleRestart_eq]; rfl
  case panel =>
    rw [exec_panelRestart (by rw [running]; decide), restartRequest_running running, moduleRestart_eq]; rfl
  case chassis =>
    rw [exec_chassisReset_off (by rw [running]; decide) off, restartRequest_running running, moduleRestart_eq]; rfl
  case continued => rw [exec_chassisReset_on continuity, if_pos running, continueThrough_eq]
  case panelAbsorbed => rw [exec_panelRestart (on startUp), restartRequest_starting startUp]; rfl
  case chassisAbsorbed => rw [exec_chassisReset_off (on startUp) off, restartRequest_starting startUp]; rfl
  case ignored =>
    have notRunning : s.restart.startUp ≠ .running := by rcases startUp with startUp | startUp <;> rw [startUp] <;> decide
    rw [exec_chassisReset_on continuity, if_neg notRunning]
  case chassisOff =>
    change execChassisReset s = _
    unfold execChassisReset
    rw [off]
  case panelReleased =>
    rw [exec_panelRestartRelease powered, afterRelease_goesOn]
    · rfl
    · exact goesOn.imp_right fun more => more.imp_right fun held => by simp [RestartLogic.restartHeld, State.holdPanel, held]
  case chassisReleased =>
    rw [exec_chassisResetRelease powered, afterRelease_goesOn]
    · rfl
    · exact goesOn.imp_right fun more => more.imp_right fun held => by simp [RestartLogic.restartHeld, State.holdChassis, held]
  case panelEnds =>
    have released : s.holdPanel false = held s false false := congrArg (held s false) free
    rw [exec_panelRestartRelease (by rw [restarting]; decide), released, afterRelease_waits (s := held s false false) ⟨restarting, out, rfl⟩]
  case chassisEnds =>
    have released : s.holdChassis false = held s false false := congrArg (fun panel => held s panel false) free
    rw [exec_chassisResetRelease (by rw [restarting]; decide), released, afterRelease_waits (s := held s false false) ⟨restarting, out, rfl⟩]

/-! ### The supply and the start-up timers (11 R184 to R186) -/

theorem powerUp_attn {s : State} (fresh : s.notices = NoticeUnit.powerUp) (slot : SlotIx) : s.attn slot = false := by
  rw [← reset_attn slot, State.attn, State.attn, fresh]
  rfl

theorem openCard_eq (s : State) (before : Vector LinkRec 12) : s.openCard =
    { s with
      notices := { s.notices with slots := mapCells (fun slot n =>
        if rd s.present slot then { n with restarted := { pending := true, seq := n.restarted.seq + 1 } } else n) s.notices.slots },
      links := mapCells (fun slot _ => { LinkRec.mute with listening := rd s.present slot }) before,
      restart := { s.restart with startUp := .running, settleTimer := none, restartTimer := none } } := by
  rw [State.openCard, resetLinks_eq s.present before, raiseForPresent_eq]
  rfl

/-- Before the first value that a search finds there is none that it would find. -/
theorem find_takeWhile {α : Type} [DecidableEq α] {p : α → Bool} {l : List α} {a : α} (found : l.find? p = some a) :
    (l.takeWhile (fun x => x != a)).find? p = none := by
  induction l with
  | nil => rfl
  | cons x l ih =>
    by_cases here : p x = true
    · rw [List.find?_cons_of_pos here] at found
      cases found
      rw [List.takeWhile_cons_of_neg (by simp)]
      rfl
    · rw [List.find?_cons_of_neg here] at found
      have other : (x != a) = true := by
        rw [bne_iff_ne]
        rintro rfl
        exact here (List.find?_some found)
      rw [List.takeWhile_cons_of_pos (p := fun y => y != a) other, List.find?_cons_of_neg here]
      exact ih found

/-- The best reference has no better one, so nothing is a candidate to replace it (07 R134). -/
theorem candidate_best {b : StationBlock} (best : b.station = b.bestQualified) : b.candidate = none := by
  unfold StationBlock.candidate
  split
  · rename_i a _ station
    exact find_takeWhile (best.symm.trans station)
  · rfl
  · rfl

theorem judgeAfresh_qualified {r : RefRec} {ref : Ref} {rate : Nat} (qualified : (r.judgeAfresh ref rate).state = .qualified) : ref = .xo := by
  by_contra other
  rw [RefRec.judgeAfresh_eq] at qualified
  split at qualified
  · cases qualified
  · split at qualified
    · cases qualified
    · cases qualified

theorem restarted_ref (b : StationBlock) (r : Ref) : b.restarted.ref r = (b.ref r).judgeAfresh r b.rate := b.judgeAll_ref b.rate r

/-- The references as a module restart judges them, before the choice (07 R140). -/
def StationBlock.rejudged (b : StationBlock) : StationBlock := { b.judgeAll b.rate with restore := none }

theorem restarted_eq (b : StationBlock) : b.restarted = { b.rejudged with station := b.rejudged.bestQualified } := by
  have none' : ({ b.rejudged with station := b.rejudged.bestQualified } : StationBlock).candidate = none := candidate_best rfl
  change ({ b.rejudged with station := b.rejudged.bestQualified } : StationBlock).evaluate = _
  simp only [StationBlock.evaluate, none']
  rfl

theorem rejudged_qualified {b : StationBlock} {r : Ref} (qualified : b.rejudged.qualified r = true) : r = .xo :=
  judgeAfresh_qualified (rate := b.rate) ((congrArg RefRec.state (b.judgeAll_ref b.rate r)).symm.trans (eq_of_beq qualified))

/-- Only XO is QUALIFIED when the references have just been judged, so it is chosen or none is (07 R140). -/
theorem restarted_station {b : StationBlock} (listed : Ref.xo ∈ b.priority) :
    b.restarted.station = if (b.restarted.ref .xo).state = .qualified then some .xo else none := by
  have station : b.restarted.station = b.priority.find? b.rejudged.qualified := by rw [restarted_eq]; rfl
  have state : (b.restarted.ref .xo).state = .qualified ↔ b.rejudged.qualified .xo = true := by rw [restarted_eq]; exact beq_iff_eq.symm
  rw [station]
  by_cases xo : b.rejudged.qualified .xo = true
  · rw [if_pos (state.mpr xo)]
    obtain ⟨r, found⟩ := Option.isSome_iff_exists.mp (List.find?_isSome.mpr ⟨Ref.xo, listed, xo⟩)
    rw [found, rejudged_qualified (List.find?_some found)]
  · rw [if_neg (fun qualified => xo (state.mp qualified)), List.find?_eq_none]
    intro r _ qualified
    exact xo (rejudged_qualified qualified ▸ qualified)

/-- Settles O48: each event sets the restart logic and puts every other block at its values for the state it enters. -/
theorem startUpEvents : Obligations.StartUpEvents := by
  unfold Obligations.StartUpEvents
  refine ⟨fun s j => ?supply, fun s => ?timers⟩
  case supply =>
    intro settling closed
    have blank (restart : RestartLogic) : closed { s.blank with restart := restart } :=
      ⟨rfl, fun p => rd_fill _ _, powerUp_attn rfl, rfl, rfl, rfl, rfl, rfl, rfl, rfl, rfl⟩
    refine ⟨⟨_, rfl, rfl, blank _⟩, ⟨_, rfl, blank _, rfl⟩, fun off => ⟨s.beginSettle j { supply := true }, ?_, rfl, blank _⟩, fun on => ?_⟩
    · exact congrArg Host.Outcome.next (if_pos off)
    · exact congrArg Host.Outcome.next (if_neg on)
  case timers =>
    intro told links held fresh
    refine ⟨fun settling out => ⟨fun free => ?opens, fun held' => ?restarts⟩, fun not => ?settleStill, ⟨s.station.restarted, ?ends, restarted_ref _,
      restarted_station, ?block⟩, fun restarting out => ⟨fun free => ?restartEnds, fun held' => ?waits⟩, fun not => ?restartStill⟩
    case opens =>
      have settled : exec .xoSettleExpiry s = .next s.endSettle := congrArg Host.Outcome.next (if_pos ⟨settling, out⟩)
      rw [settled, State.endSettle, if_neg (by rw [show s.restart.restartHeld = false from free]; exact Bool.false_ne_true), openCard_eq _ s.links]
      rfl
    case restarts =>
      have settled : exec .xoSettleExpiry s = .next s.endSettle := congrArg Host.Outcome.next (if_pos ⟨settling, out⟩)
      rw [settled, State.endSettle, if_pos (show s.restart.restartHeld = true from held')]
      rfl
    case settleStill => exact congrArg Host.Outcome.next (if_neg (by tauto))
    case ends => exact openCard_eq _ s.links
    case block => exact (restarted_eq _).trans rfl
    case restartEnds =>
      have expired : exec .restartTimerExpiry s = .next s.restartTimerOut := congrArg Host.Outcome.next (if_pos ⟨restarting, out⟩)
      rw [expired, State.restartTimerOut, if_neg (by rw [show s.restart.restartHeld = false from free]; exact Bool.false_ne_true)]
    case waits =>
      have expired : exec .restartTimerExpiry s = .next s.restartTimerOut := congrArg Host.Outcome.next (if_pos ⟨restarting, out⟩)
      rw [expired, State.restartTimerOut, if_pos (show s.restart.restartHeld = true from held')]
    case restartStill => exact congrArg Host.Outcome.next (if_neg (by tauto))

end Sys2Proof.Machine

/-! The payloads of the reading commands (10 R175, R177, R178), field by field. -/

namespace Sys2Proof.Machine

/-! ### Codes as places (10 R175) -/

theorem ref_place (r : Ref) : r.code = List.idxOf r [.xo, .refa, .refb] := by cases r <;> rfl

theorem selMode_place (m : SelMode) : m.code = List.idxOf m [.revertive, .nonrevertive] := by cases m <;> rfl

theorem qualPeriod_place (p : QualPeriod) : p.code = List.idxOf p [.long, .short] := by cases p <;> rfl

theorem planStatus_place (e : PlanEntry) : planStatusCode (some e) = 1 + List.idxOf e.status [.valid, .outOfBand, .disabled] := by
  cases status : e.status <;> rw [planStatusCode, status] <;> rfl

theorem loopState_place (x : LoopState) : x.code = List.idxOf x [.idle, .waiting, .acquiring, .tracking, .locked, .holdover] := by cases x <;> rfl

theorem failCause_place (c : FailCause) : c.code = List.idxOf c [.acquireTimeout, .holdoverExpired] := by cases c <;> rfl

theorem timerKind_place (k : TimerKind) : k.code = List.idxOf k [.acquire, .settle, .holdover] := by cases k <;> rfl

theorem role_place (r : Role) : r.code = List.idxOf r [.current, .retuneTarget] := by cases r <;> rfl

theorem refState_place (x : RefState) : x.code = List.idxOf x [.disabled, .misfit, .absent, .outOfRange, .qualifying, .qualified] := by
  cases x <;> rfl

theorem portState_eq (r : PortRec) : toByte r.state.code = if r.switching.isSome then 0x02#8 else if r.current = .none then 0x00#8 else 0x01#8 := by
  unfold PortRec.state
  cases r.switching with
  | some sw => rfl
  | none => cases r.current <;> rfl

theorem retireReason_eq (r : RetireReason) : toByte r.code = if r = .leaseExpired then 0x01#8 else 0x02#8 := by cases r <;> rfl

theorem retiredBytes_eq (r : Option Retired) : retiredBytes r = match r with
    | some r => [if r.reason = .leaseExpired then 0x01#8 else 0x02#8, toByte r.gen.val]
    | none => [0x00#8, 0xFF#8] := by
  cases r with
  | none => rfl
  | some r => rw [retiredBytes, retireReason_eq]

theorem retiredBytes_length (r : Option Retired) : (retiredBytes r).length = 2 := by cases r <;> rfl

/-! ### Optional fields (10 R175) -/

/-- A yes or no byte. -/
def flagByte (b : Bool) : Byte := if b then 0x01#8 else 0x00#8

theorem flagByte_eq (b : Bool) : toByte (codeBool b) = flagByte b := by cases b <;> rfl

theorem stationByte_eq (r : Option Ref) : stationByte r = toByte ((r.map (fun r => List.idxOf r [Ref.xo, .refa, .refb])).getD 3) := by
  rcases r with _ | (_ | _ | _) <;> rfl

theorem optMark_paused (l : LoopRec) : optMark (l.timer.map (fun _ => l.paused)) = match l.timer with
    | some _ => flagByte (l.state == .waiting)
    | none => 0xFF#8 := by
  cases timer : l.timer with
  | none => rfl
  | some t =>
    rw [LoopRec.paused, timer, Option.isSome_some, Bool.and_true]
    exact flagByte_eq _

theorem hertzBytes_length (hz : Nat) : (hertzBytes hz).length = 4 := by
  unfold hertzBytes
  split <;> rfl

theorem errorBytes_ppm (x : Int) : errorBytes (some (.ppm x)) = be16 (max (-32767) (min 32767 x) % 65536).toNat := by
  change be16 (BitVec.ofInt 16 (max (-32767) (min 32767 x))).toNat = _
  rw [BitVec.toNat_ofInt]
  rfl

theorem failCause_codes : FailCause.code = fun c => List.idxOf c [.acquireTimeout, .holdoverExpired] := funext failCause_place

/-! ### Ports (04 R86) -/

theorem sourceBytes_eq (src : Source) : src.bytes = match src with
    | .none => [0x00#8, 0xFF#8, 0x00#8, 0x00#8, 0x00#8, 0x00#8]
    | .loop k d none => [0x01#8, toByte k.val, toByte d, 0x00#8, 0x00#8, 0x00#8]
    | .loop k d (some g) => [0x01#8, toByte k.val, toByte d, toByte (g.val + 1), 0x00#8, 0x00#8]
    | .fallback fd => [0x02#8, 0xFF#8, 0x00#8, 0x00#8] ++ be16 fd := by
  rcases src with _ | ⟨k, d, _ | g⟩ | fd <;> rfl

theorem dividerBytes_eq (dv : Option GroupDivider) : dividerBytes dv = match dv with
    | some dv => [toByte dv.loop.val] ++ be16 dv.value ++ be16 (dv.pendingValue.getD 0)
    | none => [0xFF#8, 0x00#8, 0x00#8, 0x00#8, 0x00#8] := by
  cases dv <;> rfl

theorem sourceBytes_length (src : Source) : src.bytes.length = 6 := by cases src <;> rfl

theorem switchingBytes_length (sw : Option Switching) : (switchingBytes sw).length = 8 := by
  cases sw with
  | none => rfl
  | some sw =>
    rw [switchingBytes, List.length_append, List.length_append, sourceBytes_length]
    cases sw.target <;> rfl

theorem dividerBytes_length (dv : Option GroupDivider) : (dividerBytes dv).length = 5 := by cases dv <;> rfl

theorem optHandle_length (h : Option Handle) : (optHandle h).length = 2 := by cases h <;> rfl

theorem portBytes_length (s : State) (p : PortIx) : (s.portBytes p).length = 28 := by
  simp [State.portBytes, sourceBytes_length, switchingBytes_length, hertzBytes_length, dividerBytes_length, optHandle_length]

theorem lineHertz_zero {s : State} {p : PortIx} (still : (rd s.switch.ports p).current = .none ∨ s.silent p = true ∨
    ∃ sw, (rd s.switch.ports p).switching = some sw ∧ sw.stasis = true) : s.lineHertz p = 0 := by
  unfold State.lineHertz
  rcases still with off | silent | ⟨sw, switching, stasis⟩
  · simp only [off]
    split <;> rfl
  · simp only [silent, Bool.or_true, if_true]
  · simp only [PortRec.inStasis, switching, stasis, Bool.true_or, if_true]

theorem lineHertz_driven {s : State} {p : PortIx} (drives : s.silent p = false)
    (noStasis : ∀ sw, (rd s.switch.ports p).switching = some sw → sw.stasis = false) : s.lineHertz p =
      match (rd s.switch.ports p).current with
      | .none => 0
      | .fallback fd => s.station.rate / fd
      | .loop k d _ =>
        match s.runEntry k with
        | some e => e.freqNum s.station.rate / (e.effR * d)
        | none => 0 := by
  have stasis : (rd s.switch.ports p).inStasis = false := by
    unfold PortRec.inStasis
    cases switching : (rd s.switch.ports p).switching with
    | none => rfl
    | some sw => exact noStasis sw switching
  unfold State.lineHertz
  simp only [stasis, drives, Bool.or_false, Bool.false_eq_true, if_false] <;> rfl

/-! ### Grants (10 R178) -/

theorem mem_bindingsOf {s : State} {h : Handle} {x : LoopIx × Nat × Binding} : x ∈ s.bindingsOf h ↔
    1 ≤ x.2.1 ∧ (s.list x.1)[x.2.1 - 1]? = some x.2.2 ∧ x.2.2.handle = h := by
  obtain ⟨k, n, b⟩ := x
  simp only [State.bindingsOf, List.mem_flatMap, mem_allLoops, true_and, List.mem_filterMap, Prod.exists, List.mem_zipIdx_iff_le_and_getElem?_sub,
    Option.ite_none_right_eq_some, Option.some.injEq, Prod.mk.injEq]
  constructor
  · rintro ⟨j, c, m, ⟨first, there⟩, own, rfl, rfl, rfl⟩
    exact ⟨first, there, own⟩
  · rintro ⟨first, there, own⟩
    exact ⟨k, b, n, ⟨first, there⟩, own, rfl, rfl, rfl⟩

theorem ownPlaces_length (k : LoopIx) (h : Handle) (l : List Binding) (n : Nat) :
    ((l.zipIdx n).filterMap (fun x => if x.1.handle = h then some (k, x.2, x.1) else none)).length = l.countP (fun b => b.handle == h) := by
  induction l generalizing n with
  | nil => rfl
  | cons b l ih =>
    rw [List.zipIdx_cons, List.filterMap_cons, List.countP_cons]
    by_cases own : b.handle = h
    · simp [own, ih]
    · simp [own, ih]

theorem bindingsOf_length (s : State) (h : Handle) :
    (s.bindingsOf h).length = (allLoops.map (fun k => (s.list k).countP (fun b => b.handle == h))).sum := by
  rw [State.bindingsOf, List.length_flatMap]
  simp only [ownPlaces_length]

/-- The bindings of a handle, CURRENT before RETUNE_TARGET (10 R178). -/
def State.orderedBindings (s : State) (h : Handle) : List (LoopIx × Nat × Binding) :=
  (s.bindingsOf h).filter (fun x => x.2.2.role == .current) ++ (s.bindingsOf h).filter (fun x => x.2.2.role == .retuneTarget)

theorem role_cases (r : Role) : (r == .retuneTarget) = !(r == .current) := by cases r <;> rfl

theorem mem_orderedBindings {s : State} {h : Handle} {x : LoopIx × Nat × Binding} : x ∈ s.orderedBindings h ↔ x ∈ s.bindingsOf h := by
  rw [State.orderedBindings, List.mem_append, List.mem_filter, List.mem_filter, role_cases]
  cases x.2.2.role == .current <;> simp

theorem orderedBindings_length (s : State) (h : Handle) : (s.orderedBindings h).length = (s.bindingsOf h).length := by
  rw [State.orderedBindings, List.length_append, ← List.countP_eq_length_filter, ← List.countP_eq_length_filter,
    List.length_eq_countP_add_countP (fun x : LoopIx × Nat × Binding => x.2.2.role == .current)]
  simp only [role_cases, Bool.not_eq_true, Bool.decide_eq_false]

theorem orderedBindings_pairwise (s : State) (h : Handle) :
    (s.orderedBindings h).Pairwise (fun x y => ¬ (x.2.2.role = .retuneTarget ∧ y.2.2.role = .current)) := by
  refine List.pairwise_append.mpr ⟨List.pairwise_of_forall_mem_list ?_, List.pairwise_of_forall_mem_list ?_, ?_⟩
  · rintro x first y - ⟨target, -⟩
    have current := eq_of_beq (List.mem_filter.mp first).2
    rw [current] at target; cases target
  · rintro x - y second ⟨-, current⟩
    have target := eq_of_beq (List.mem_filter.mp second).2
    rw [current] at target; cases target
  · rintro x first y - ⟨target, -⟩
    have current := eq_of_beq (List.mem_filter.mp first).2
    rw [current] at target; cases target

theorem retuneDetail_length : ∀ r, (retuneDetail r).length = 5
  | none => rfl
  | some (.sameLoop ..) => rfl
  | some (.newLoop ..) => rfl

theorem listBytes_length {entries : List (List Byte)} {n : Nat} (each : ∀ e ∈ entries, e.length = n) :
    (listBytes entries).length = 1 + n * entries.length := by
  rw [listBytes, List.length_cons, List.length_flatten, List.map_congr_left each, List.map_const', List.sum_replicate, smul_eq_mul,
    Nat.mul_comm, Nat.add_comm]

/-- Settles O36: each payload is its fields in their order, each code the place of its value. -/
theorem readPayloads : Obligations.ReadPayloads := by
  unfold Obligations.ReadPayloads
  refine ⟨errorBytes_ppm, rfl, rfl, fun hz => ⟨hertzBytes_length hz, fun fits => if_pos fits⟩, fun rate => rfl, fun s => ?_⟩
  intro bit byte time refCode hertz mode
  have flag (b : Bool) : toByte (codeBool b) = bit b := flagByte_eq b
  have optional (n : Option Nat) : optByte n = byte n := by cases n <;> rfl
  have remaining (n : Option Nat) : optTime n = time n := by cases n <;> rfl
  have reference (r : Ref) : r.code = refCode r := ref_place r
  have locking (m : LockMode) : lockModeCode m = mode m := by cases m <;> rfl
  have derived (e : PlanEntry) : hertzBytes (e.freqNum s.station.rate / e.effR) ++
      [toByte (codeBool (e.freqNum s.station.rate % e.effR == 0))] = hertz e := by rw [flag]; rfl
  refine ⟨rfl, rfl, ?identify, fun e => ?plan, fun k => ?loop, ⟨?references, ?selector⟩, fun p => ⟨?port, portBytes_length s p, fun still => ?zero,
    fun drives moving => ⟨fun fd current => ?fallback, fun k d g run e current runs entry => ?onLoop⟩⟩,
    fun p => ⟨fun none' => ?noGrant, fun g live => ⟨s.orderedBindings (g.handle p), ?grant, ?grantLength, ?bindings, fun x => ?place, ?order⟩⟩,
    ?sweep, ⟨?attention, ?attentionLength⟩, fun slot => ⟨?notices, ?noticesLength⟩, causesBytes_eq _⟩
  case identify =>
    simp only [State.identifyBytes, List.drop_succ_cons, List.drop_zero, flag, stationByte_eq, qualPeriod_place, State.runningLoops,
      ← List.countP_eq_length_filter]
    rfl
  case plan =>
    rw [planBytes, planStatus_place, ← derived e]
    simp only [locking, List.append_assoc, List.cons_append, List.nil_append]
    cases e.mode <;> rfl
  case loop =>
    intro l
    have hz : s.loopHertzBytes k = match l.run.bind (fun r => rd s.plan r.entry) with
        | some e => hertz e
        | none => be32 0 ++ [0xFF#8] := by
      rw [State.loopHertzBytes]
      change (match l.run.bind (fun r => rd s.plan r.entry) with
        | some e => _
        | none => _) = _
      cases l.run.bind (fun r => rd s.plan r.entry) with
      | none => rfl
      | some e => exact derived e
    have bytes : Binding.bytes = fun b =>
        [toByte b.handle.port.val, toByte b.handle.gen.val, toByte b.d, toByte (List.idxOf b.role [.current, .retuneTarget])] :=
      funext fun b => by rw [Binding.bytes, role_place]; rfl
    simp only [State.loopBytes]
    rw [hz, bytes, optMark_paused, failCause_codes]
    simp only [loopState_place, timerKind_place, locking, flag, optional, remaining]
    rfl
  case references =>
    have record (r : RefRec) : r.bytes = [bit r.enabled] ++ be32 r.nominal ++ be16 (r.preDivider.getD 0) ++
        [toByte (List.idxOf r.state [.disabled, .misfit, .absent, .outOfRange, .qualifying, .qualified])] ++ time r.qualTimer ++
        errorBytes r.lastError := by
      rw [RefRec.bytes, flag, refState_place, remaining]
    rw [StationBlock.bytes, record, record, record, qualPeriod_place]
  case selector =>
    simp only [StationBlock.selectorBytes, stationByte_eq, selMode_place, reference, optional, remaining]
    rfl
  case port =>
    refine congrArg₂ (· ++ ·) (congrArg₂ (· ++ ·) (congrArg₂ (· ++ ·) (congrArg₂ (· ++ ·) (congrArg₂ (· ++ ·) (congrArg₂ (· ++ ·) ?_ ?_) ?_) ?_)
      rfl) ?_) ?_
    · exact congrArg (fun b => [toByte p.val, b]) (portState_eq _)
    · exact sourceBytes_eq _
    · cases (rd s.switch.ports p).switching with
      | none => rfl
      | some sw =>
        simp only [switchingBytes, sourceBytes_eq, flag]
        rcases sw.target with _ | ⟨k, d, _ | g⟩ | fd <;> rfl
    · exact congrArg (fun b => [b]) (flag _)
    · exact dividerBytes_eq _
    · cases s.grantAt p <;> rfl
  case zero => exact lineHertz_zero still
  case fallback =>
    rw [lineHertz_driven drives moving, current]
  case onLoop =>
    have entry' : s.runEntry k = some e := by
      unfold State.runEntry
      rw [runs]
      exact entry
    rw [lineHertz_driven drives moving, current]
    simp only [entry']
    rfl
  case noGrant => simp only [State.grantBytes, none', List.singleton_append]
  case grant =>
    have detail : retuneDetail g.retune = match g.retune with
        | none => List.replicate 5 0xFF#8
        | some (.sameLoop d _ _) => [toByte d] ++ List.replicate 4 0xFF#8
        | some (.newLoop t _ _ cut) =>
          [0xFF#8, toByte t.loop.val, toByte t.entry.val, toByte t.d, if cut = .awaitingLock then 0x00#8 else 0x01#8] := by
      rcases g.retune with _ | (_ | ⟨_, _, _, _ | _⟩) <;> rfl
    have placed : placedBytes = fun x =>
        [toByte x.1.val, if x.2.2.role = .current then 0x00#8 else 0x01#8, toByte x.2.1, toByte x.2.2.d] := funext fun x => by
      rw [placedBytes]
      cases x.2.2.role <;> rfl
    simp only [State.grantBytes, live]
    rw [detail, placed, flag]
    simp only [List.append_assoc]
    rfl
  case grantLength =>
    simp only [State.grantBytes, live]
    simp only [List.length_append, entryBytes_length, retuneDetail_length, List.length_cons, List.length_nil]
    rw [listBytes_length (n := 4) (by rintro e listed; obtain ⟨x, -, rfl⟩ := List.mem_map.mp listed; rfl), List.length_map,
      State.orderedBindings]
    omega
  case bindings => exact (orderedBindings_length _ _).trans (bindingsOf_length _ _)
  case place => exact mem_orderedBindings.trans mem_bindingsOf
  case order => exact orderedBindings_pairwise _ _
  case sweep =>
    simp only [State.sweepBytes, grantState_place]
    rfl
  case attention =>
    simp only [Attention.bytes, latchedByte, flag, optional]
    rfl
  case attentionLength => rfl
  case notices =>
    have kinds (q : PortIx) : (allPortKinds.map (fun k => (rd (rd s.notices.ports q).kinds k.index).bytes)).flatten =
        ((List.finRange 9).map (fun i =>
          [bit (rd (rd s.notices.ports q).kinds i).pending, toByte (rd (rd s.notices.ports q).kinds i).seq.val])).flatten := by
      simp only [allPortKinds_index, List.map_map, Notice.bytes, flag]
      rfl
    simp only [State.noticesBytes, kinds]
    simp only [Notice.bytes, retiredBytes_eq, flag] <;> rfl
  case noticesLength =>
    simp [State.noticesBytes, allPortKinds, Notice.bytes, retiredBytes_length]

end Sys2Proof.Machine

/-! REQUEST (01 R8 to R16): the allocation search, the grant created, and the alignment group formed or joined. -/

namespace Sys2Proof.Machine

/-! ### Allocation (01 R9) -/

/-- Settles O14: the search over the loops, with the entry match query as its test. -/
theorem allocationSearchOrder : Obligations.AllocationSearchOrder := by
  unfold Obligations.AllocationSearchOrder
  intro s f tol ex sat locked unlocked startable
  obtain ⟨first, rest⟩ := searchLoops_order s.loops.loops ex (fun i => matchEntry s.plan s.station.rate i f tol)
  have found {k i d} (search : searchLoops s.loops.loops ex (fun i => matchEntry s.plan s.station.rate i f tol) = some (k, i, d)) :
      s.allocate f tol ex = some { loop := k, entry := i, d := d } := by rw [State.allocate, search]; rfl
  refine ⟨fun k i d isLocked fits lowest => found (first k i d isLocked fits lowest), fun noLocked => ?_⟩
  obtain ⟨second, third⟩ := rest noLocked
  refine ⟨fun k i d isUnlocked fits lowest => found (second k i d isUnlocked fits lowest), fun noUnlocked => ?_⟩
  obtain ⟨start, nothing⟩ := third noUnlocked
  exact ⟨fun k i d canStart lowest fits least => found (start k i d canStart lowest fits least),
    fun none' => by rw [State.allocate, nothing none']; rfl⟩

/-! ### A new grant (01 R11) -/

theorem fallbackDividerOf_eq (a : RequestArgs) : fallbackDividerOf a = if a.policy = .fallback then some a.fd else none := by
  cases policy : a.policy <;> simp [fallbackDividerOf, policy]

theorem newGrant_pendingSource (a : RequestArgs) (gen : Mod16) (b : GrantBinding) (group : Option GroupIx) :
    (newGrantOf a gen b group).pendingSource = if a.policy = .fallback then .fallback a.fd else .none := by
  cases policy : a.policy <;> simp [Grant.pendingSource, newGrantOf, fallbackDividerOf, policy]

theorem newGrantOf_eq (a : RequestArgs) (gen : Mod16) (b : GrantBinding) (group : Option GroupIx) : newGrantOf a gen b group =
    { gen := gen, state := .pending, f := a.f, tol := a.tol, policy := a.policy, fd := if a.policy = .fallback then some a.fd else none,
      lease := if a.lease = 0 then none else some { period := a.lease, remaining := a.lease * 1000 },
      binding := some b, group := group, retune := none, mark := false } := by
  rw [newGrantOf, fallbackDividerOf_eq]
  rfl

theorem started_eq (limit : Nat) (station : Option Ref) (i : EntryIx) (mode : LockMode) : LoopRec.started limit station i mode =
    { state := if station = none then .waiting else .acquiring, failed := none, run := some { entry := i, mode := mode }, good := 0,
      lastError := none, timer := some (match mode with
        | .auto => { kind := .acquire, remaining := limit }
        | .timed settle => { kind := .settle, remaining := settle }) } := by
  cases station <;> cases mode <;> rfl

theorem started_notUsable (limit : Nat) (station : Option Ref) (i : EntryIx) (mode : LockMode) :
    (LoopRec.started limit station i mode).usable = false := by
  rw [started_eq, LoopRec.usable]
  cases station <;> rfl

/-- The loops after a binding has been appended on loop `k`: an IDLE loop starts on the entry (01 R6). -/
def State.loopsStarting (s : State) (k : LoopIx) (i : EntryIx) : LoopController :=
  if (s.loop k).state = .idle then
    { s.loops with loops := wr s.loops.loops k (LoopRec.started s.loops.acquireLimit s.station.station i (planMode s.plan i)) }
  else s.loops

theorem appendBinding_eq {s : State} {k : LoopIx} (i : EntryIx) (b : Binding) (free : (s.loop k).state = .idle → (s.loop k).failed = none) :
    s.appendBinding k i b =
      { s with engine := { s.engine with lists := wr s.engine.lists k (rd s.engine.lists k ++ [b]) }, loops := s.loopsStarting k i } := by
  unfold State.loopsStarting
  by_cases idle : (s.loop k).state = .idle
  · rw [appendBinding_idle s k i b idle (free idle), if_pos idle]
    rfl
  · rw [appendBinding_running s k i b idle, if_neg idle]
    rfl

theorem addGrant_eq {s : State} {b : GrantBinding} (p : PortIx) (a : RequestArgs) (group : Option GroupIx)
    (free : (s.loop b.loop).state = .idle → (s.loop b.loop).failed = none) : s.addGrant p a b group =
    { s with
      engine := { s.engine with
        generations := wr s.engine.generations p (s.nextGen p),
        grants := wr s.engine.grants p (some (newGrantOf a (s.nextGen p) b group)),
        lists := wr s.engine.lists b.loop (rd s.engine.lists b.loop ++
          [{ handle := { port := p, gen := s.nextGen p }, d := b.d, role := .current }]) },
      loops := s.loopsStarting b.loop b.entry } :=
  appendBinding_eq (s := ({ s with engine := { s.engine with generations := wr s.engine.generations p (s.nextGen p) } } : State).setGrant p
    (some (newGrantOf a (s.nextGen p) b group))) b.entry _ free

theorem usable_iff {l : LoopRec} : l.usable = true ↔ l.state = .locked ∨ l.state = .holdover := by
  rw [LoopRec.usable, Bool.or_eq_true, beq_iff_eq, beq_iff_eq]

/-- The port target of a new grant: its loop when that was LOCKED before, else the pending source (01 R7). -/
theorem newGrant_target {s t : State} {a : RequestArgs} {b : GrantBinding} (gen : Mod16) (group : Option GroupIx)
    (loops : t.loops = s.loopsStarting b.loop b.entry) (fresh : (s.loop b.loop).state ≠ .holdover) :
    t.portTarget (newGrantOf a gen b group) = if (s.loop b.loop).state = .locked then .loop b.loop b.d group
      else if a.policy = .fallback then .fallback a.fd else .none := by
  have target : t.portTarget (newGrantOf a gen b group) =
      if (t.loop b.loop).usable then .loop b.loop b.d group else (newGrantOf a gen b group).pendingSource := rfl
  have usable : (t.loop b.loop).usable = true ↔ (s.loop b.loop).state = .locked := by
    rw [State.loop, loops, State.loopsStarting]
    by_cases idle : (s.loop b.loop).state = .idle
    · rw [if_pos idle, rd_wr_same, started_notUsable, idle]
      simp
    · rw [if_neg idle, usable_iff]
      exact ⟨fun either => either.resolve_right fresh, .inl⟩
  rw [target, newGrant_pendingSource]
  simp only [usable]

theorem requestByState_live {s : State} {p : PortIx} {g : Grant} (live : s.grantAt p = some g) :
    s.requestByState p = s.requestSwitch p (s.portTarget g) := by
  simp only [State.requestByState, live]

section Accepted

variable {s : State} {slot : SlotIx} {a : RequestArgs}

theorem serveRequest_created {b : GrantBinding} (released : s.maint.hold = false) (acceptable : requestAcceptable a = true)
    (free : s.grantAt (portOf slot a.line) = none) (unaligned : a.align = none) (found : s.allocate a.f a.tol none = some b) :
    s.serveRequest slot a = s.create (portOf slot a.line) a b := by
  simp [State.serveRequest, released, acceptable, free, unaligned, found]

theorem serveRequest_aligned {hd : Handle} (released : s.maint.hold = false) (acceptable : requestAcceptable a = true)
    (free : s.grantAt (portOf slot a.line) = none) (aligned : a.align = some hd) :
    s.serveRequest slot a = s.serveAligned (portOf slot a.line) a hd := by
  simp [State.serveRequest, released, acceptable, free, aligned]

end Accepted

theorem create_eq {s : State} {a : RequestArgs} {b : GrantBinding} (p : PortIx) (free : (s.loop b.loop).state = .idle → (s.loop b.loop).failed = none)
    (fresh : (s.loop b.loop).state ≠ .holdover) : (s.create p a b).1 =
    { s with
      engine := { s.engine with
        generations := wr s.engine.generations p (s.nextGen p),
        grants := wr s.engine.grants p (some (newGrantOf a (s.nextGen p) b none)),
        lists := wr s.engine.lists b.loop (rd s.engine.lists b.loop ++
          [{ handle := { port := p, gen := s.nextGen p }, d := b.d, role := .current }]) },
      loops := s.loopsStarting b.loop b.entry,
      switch := s.switch.request (s.loopsStarting b.loop b.entry).loops s.station.station p
        (if (s.loop b.loop).state = .locked then .loop b.loop b.d none else if a.policy = .fallback then .fallback a.fd else .none) } := by
  have added := addGrant_eq p a none free
  have live : (s.addGrant p a b none).grantAt p = some (newGrantOf a (s.nextGen p) b none) := by
    rw [added]
    exact rd_wr_same _ _ _
  have target := newGrant_target (s := s) (t := s.addGrant p a b none) (a := a) (b := b) (s.nextGen p) none (by rw [added]) fresh
  change (s.addGrant p a b none).requestByState p = _
  rw [requestByState_live live, target, State.requestSwitch, added]

/-- Settles O16: the record, the binding with its start, and the switch by the state of the loop that allocation found. -/
theorem requestCreatesGrant : Obligations.RequestCreatesGrant := by
  unfold Obligations.RequestCreatesGrant
  intro s slot tag a b ready released inRange free unaligned found p gen mode started loops target grant binding
  obtain ⟨-, -, state⟩ := allocate_found s a.f a.tol none b found
  have unfailed : (s.loop b.loop).state = .idle → (s.loop b.loop).failed = none := fun idle => by
    rcases state with ⟨-, failed⟩ | ⟨running, -⟩
    · exact failed
    · rw [idle] at running
      simp at running
  have fresh : (s.loop b.loop).state ≠ .holdover := fun holdover => by
    rw [holdover] at state
    simp at state
  have starts : s.loopsStarting b.loop b.entry = loops := by
    rw [State.loopsStarting, started_eq] <;> rfl
  have served : s.serveRequest slot a = ((s.create p a b).1, requestAnswer p gen a none) :=
    serveRequest_created released ((requestAcceptable_iff a).mpr inRange) free unaligned found
  refine (exec_slotRow_served (r := .request a) tag ready served).trans ?_
  rw [create_eq p unfailed fresh, starts, newGrantOf_eq]
  rfl

end Sys2Proof.Machine

/-! The aligned REQUEST (01 R13 to R17): its checks, the least common multiples, and the group formed or joined. -/

namespace Sys2Proof.Machine

/-! ### Least common multiples (01 R14, 06 R112) -/

theorem foldl_lcm_dvd (l : List Nat) (a m : Nat) : l.foldl Nat.lcm a ∣ m ↔ a ∣ m ∧ ∀ d ∈ l, d ∣ m := by
  induction l generalizing a with
  | nil => simp
  | cons d l ih => rw [List.foldl_cons, ih, Nat.lcm_dvd_iff, List.forall_mem_cons, and_assoc]

theorem lcmOf_dvd (l : List Nat) (m : Nat) : lcmOf l ∣ m ↔ ∀ d ∈ l, d ∣ m := by
  rw [lcmOf, foldl_lcm_dvd]
  simp

theorem mem_memberDividers {s : State} {hs : List Handle} {d : Nat} :
    d ∈ s.memberDividers hs ↔ ∃ h ∈ hs, ∃ g, s.grantAt h.port = some g ∧ d ∈ g.groupDividers := by
  rw [State.memberDividers, List.mem_flatMap]
  refine exists_congr fun h => and_congr_right fun _ => ?_
  cases s.grantAt h.port <;> simp

theorem sameLoopDivider_eq_some {g : Grant} {d : Nat} : g.sameLoopDivider = some d ↔ ∃ f tol, g.retune = some (.sameLoop d f tol) := by
  unfold Grant.sameLoopDivider
  rcases g.retune with _ | (_ | _) <;> simp [eq_comm]

theorem retuneValue_dvd {s : State} {h : Handle} {gr : Group} {d m : Nat} : s.retuneValue h gr d ∣ m ↔ gr.g ∣ m ∧ d ∣ m ∧
    ∀ x ∈ gr.members, x ≠ h → ∀ g d' f tol, s.grantAt x.port = some g → g.retune = some (.sameLoop d' f tol) → d' ∣ m := by
  rw [State.retuneValue, lcmOf_dvd, List.forall_mem_cons, List.forall_mem_cons]
  refine and_congr_right fun _ => and_congr_right fun _ => ?_
  simp only [List.mem_flatMap, List.mem_filter, bne_iff_ne]
  constructor
  · intro all x member other g d' f tol live retune
    refine all d' ⟨x, ⟨member, other⟩, ?_⟩
    simp only [live]
    exact Option.mem_toList.mpr (sameLoopDivider_eq_some.mpr ⟨f, tol, retune⟩)
  · rintro all d' ⟨x, ⟨member, other⟩, inside⟩
    cases live : s.grantAt x.port with
    | none => simp [live] at inside
    | some g =>
      simp only [live] at inside
      obtain ⟨f, tol, retune⟩ := sameLoopDivider_eq_some.mp (Option.mem_toList.mp inside)
      exact all x member other g d' f tol live retune

/-- Settles O18: a common multiple of a list is what its least common multiple divides. -/
theorem alignmentDividers : Obligations.AlignmentDividers := by
  unfold Obligations.AlignmentDividers
  refine ⟨fun g b d f tol binding => ⟨fun none' => ?_, fun retune => ?_⟩, fun s hs d => mem_memberDividers,
    fun l => ⟨(lcmOf_dvd l _).mp dvd_rfl, fun m => (lcmOf_dvd l m).mpr⟩, fun s h gr d m => retuneValue_dvd⟩
  · simp [Grant.groupDividers, binding, Grant.sameLoopDivider, none']
  · simp [Grant.groupDividers, binding, Grant.sameLoopDivider, retune]

/-! ### The checks of 01 R14, each with those before it passed -/

section Checks

variable {s : State} {p : PortIx} {a : RequestArgs} {hd : Handle} {h : Grant} {hb : GrantBinding}

theorem serveAligned_stale (stale : s.resolve hd = none) : s.serveAligned p a hd = (s, Answer.bare .stale) := by
  rw [State.serveAligned, stale]

theorem serveAligned_refused (live : s.resolve hd = some h)
    (barred : h.state = .stranded ∨ ∃ t f tol cut, h.retune = some (.newLoop t f tol cut)) :
    s.serveAligned p a hd = (s, Answer.bare .alignRefused) := by
  rw [State.serveAligned, live]
  dsimp only
  rcases barred with stranded | ⟨t, f, tol, cut, retune⟩
  · rcases h.binding with _ | b <;> rcases h.retune with _ | (_ | _) <;> simp only [if_pos stranded]
  · rw [retune]
    cases h.binding <;> rfl

theorem alignBound_noLoop (holdover : (s.loop hb.loop).state = .holdover) : s.alignBound p a hd h hb = (s, Answer.bare .noLoop) := by
  rw [State.alignBound, if_pos holdover]

theorem alignBound_noMatch (usable : (s.loop hb.loop).state ≠ .holdover)
    (unmatched : matchEntry s.plan s.station.rate hb.entry a.f a.tol = none) : s.alignBound p a hd h hb = (s, Answer.bare .noMatch) := by
  rw [State.alignBound, if_neg usable, unmatched]

theorem groupOf_some {gi : GroupIx} {gr : Group} (group : h.group = some gi) (record : rd s.engine.groups gi = some gr) :
    s.groupOf h = some (gi, gr) := by
  rw [State.groupOf, group, Option.bind_some, record, Option.map_some]

theorem groupOf_none (group : h.group = none) : s.groupOf h = none := by rw [State.groupOf, group, Option.bind_none]

/-- Past its first two checks an aligned REQUEST joins the group of a grouped grant, with a place free and the multiple within 4,096. -/
theorem alignBound_grouped {d : Nat} {gi : GroupIx} {gr : Group} (usable : (s.loop hb.loop).state ≠ .holdover)
    (matched : matchEntry s.plan s.station.rate hb.entry a.f a.tol = some d) (group : h.group = some gi) (record : rd s.engine.groups gi = some gr) :
    s.alignBound p a hd h hb =
      if 8 ≤ gr.members.length ∨ 4096 < lcmOf (d :: gr.g :: s.memberDividers gr.members) then (s, Answer.bare .alignRefused)
      else s.joinGroup p a { loop := hb.loop, entry := hb.entry, d := d } gi gr (lcmOf (d :: gr.g :: s.memberDividers gr.members)) := by
  rw [State.alignBound, if_neg usable, matched]
  simp only [groupOf_some group record]
  by_cases full : 8 ≤ gr.members.length
  · rw [if_pos full, if_pos (.inl full)]
  · rw [if_neg full]
    exact if_congr (or_iff_right full).symm rfl rfl

/-- And forms the lowest free group with an ungrouped one. -/
theorem alignBound_ungrouped {d : Nat} (usable : (s.loop hb.loop).state ≠ .holdover)
    (matched : matchEntry s.plan s.station.rate hb.entry a.f a.tol = some d) (group : h.group = none) :
    s.alignBound p a hd h hb = match s.freeGroup with
      | none => (s, Answer.bare .alignRefused)
      | some gi =>
        if 4096 < lcmOf (d :: h.groupDividers) then (s, Answer.bare .alignRefused)
        else s.formGroup p a { loop := hb.loop, entry := hb.entry, d := d } hd h gi (lcmOf (d :: h.groupDividers)) := by
  rw [State.alignBound, if_neg usable, matched]
  simp only [groupOf_none group] <;> rfl

end Checks

/-- Settles O17: the checks of an aligned REQUEST in their order. -/
theorem alignedRequestRefused : Obligations.AlignedRequestRefused := by
  unfold Obligations.AlignedRequestRefused
  intro s slot tag a hd ready released acceptable free aligned refused
  have answered {st} (served : s.serveAligned (portOf slot a.line) a hd = (s, Answer.bare st)) : refused st :=
    exec_slotRow_refused (r := .request a) tag ready ((serveRequest_aligned released acceptable free aligned).trans served)
  refine ⟨fun stale => answered (serveAligned_stale stale), fun h live => ⟨fun barred => answered (serveAligned_refused live barred),
    fun hb unstranded settled binding => ?bound⟩⟩
  case bound =>
    have bound {st} (served : s.alignBound (portOf slot a.line) a hd h hb = (s, Answer.bare st)) : refused st :=
      answered ((serveAligned_bound s _ a hd h hb live settled binding unstranded).trans served)
    refine ⟨fun holdover => bound (alignBound_noLoop holdover), fun usable => ⟨fun unmatched => bound (alignBound_noMatch usable unmatched),
      fun d matched => ⟨fun gi gr group record => ⟨fun full => bound ?full, fun room above => bound ?joined⟩,
        fun ungrouped => ⟨fun used => bound ?noId, fun above => bound ?formed⟩⟩⟩⟩
    case full => rw [alignBound_grouped usable matched group record, if_pos (.inl full)]
    case joined => rw [alignBound_grouped usable matched group record, if_pos (.inr above)]
    case noId => rw [alignBound_ungrouped usable matched ungrouped, freeGroup_none s used]
    case formed =>
      rw [alignBound_ungrouped usable matched ungrouped]
      cases s.freeGroup with
      | none => rfl
      | some gi => exact if_pos above

/-! ### The group formed or joined (01 R15, R16) -/

section Grouped

variable {s : State} {a : RequestArgs} {b : GrantBinding} {hd : Handle} {h : Grant} {gi : GroupIx} {p : PortIx}

theorem loopsStarting_running {k : LoopIx} (running : (s.loop k).state ≠ .idle) (i : EntryIx) : s.loopsStarting k i = s.loops := if_neg running

/-- The engine of an aligned grant's creation, before its group is recorded. -/
theorem addGrant_running (p : PortIx) (a : RequestArgs) (group : Option GroupIx) (running : (s.loop b.loop).state ≠ .idle) :
    s.addGrant p a b group =
    { s with engine := { s.engine with
        generations := wr s.engine.generations p (s.nextGen p),
        grants := wr s.engine.grants p (some (newGrantOf a (s.nextGen p) b group)),
        lists := wr s.engine.lists b.loop (rd s.engine.lists b.loop ++
          [{ handle := { port := p, gen := s.nextGen p }, d := b.d, role := .current }]) } } := by
  rw [addGrant_eq p a group (fun idle => absurd idle running), loopsStarting_running running]

theorem onItsLoop_iff {g : Grant} : g.onItsLoop = true ↔ g.state = .active ∨ (g.state = .degraded ∧ g.policy = .keep) := by
  simp only [Grant.onItsLoop, Bool.or_eq_true, Bool.and_eq_true, beq_iff_eq]

theorem tableTarget_onItsLoop {t : State} {g : Grant} (runs : g.onItsLoop = true) : t.tableTarget g = g.loopSource := by
  rcases onItsLoop_iff.mp runs with active | ⟨degraded, keep⟩
  · simp only [State.tableTarget, active]
  · simp only [State.tableTarget, degraded, keep, if_true]

/-- The divider of a grant on its loop: that of its SAME_LOOP retune, if one is in flight, else its own (06 R108). -/
def Grant.drivenDivider (g : Grant) (b : GrantBinding) : Nat :=
  match g.retune with
  | some (.sameLoop d _ _) => d
  | _ => b.d

/-- The port target of a grant that runs from its loop, once it is aligned (01 R7, 06 R108). -/
theorem alignedTarget {t : State} {hb : GrantBinding} (binding : h.binding = some hb) (settled : ∀ t f tol cut, h.retune ≠ some (.newLoop t f tol cut))
    (runs : h.onItsLoop = true) : t.portTarget { h with group := some gi } = .loop hb.loop (h.drivenDivider hb) (some gi) := by
  have table : t.tableTarget { h with group := some gi } = .loop hb.loop hb.d (some gi) := by
    rw [tableTarget_onItsLoop (g := { h with group := some gi }) runs, Grant.loopSource]
    simp only [binding]
  rcases retune : h.retune with _ | (⟨d, f, tol⟩ | ⟨n, f, tol, cut⟩)
  · simp only [Grant.drivenDivider, retune]
    simp only [State.portTarget]
    exact retune ▸ table
  · simp only [Grant.drivenDivider, retune]
    simp only [State.portTarget, binding]
  · exact absurd retune (settled n f tol cut)

/-- The grant engine once a group has been formed of the grant H and a new grant (01 R15). -/
def State.groupFormed (s : State) (p : PortIx) (a : RequestArgs) (b : GrantBinding) (hd : Handle) (h : Grant) (gi : GroupIx) (v : Nat) :
    GrantEngine :=
  { generations := wr s.engine.generations p (s.nextGen p),
    grants := wr (wr s.engine.grants p (some (newGrantOf a (s.nextGen p) b (some gi)))) hd.port (some { h with group := some gi }),
    lists := wr s.engine.lists b.loop (rd s.engine.lists b.loop ++ [{ handle := { port := p, gen := s.nextGen p }, d := b.d, role := .current }]),
    groups := wr s.engine.groups gi (some { loop := b.loop, g := v, members := [hd, { port := p, gen := s.nextGen p }] }) }

theorem formGroup_engine {v : Nat} (running : (s.loop b.loop).state ≠ .idle) (apart : hd.port ≠ p) (live : s.grantAt hd.port = some h) :
    ((s.addGrant p a b (some gi)).setGroup gi (some { loop := b.loop, g := v, members := [hd, { port := p, gen := s.nextGen p }] })).updGrant
      hd.port (fun g => { g with group := some gi }) = { s with engine := s.groupFormed p a b hd h gi v } := by
  have record : rd (wr s.engine.grants p (some (newGrantOf a (s.nextGen p) b (some gi)))) hd.port = some h :=
    (rd_wr_ne _ _ _ _ apart).trans live
  rw [addGrant_running p a (some gi) running]
  simp only [State.setGroup, State.updGrant, State.setGrant, State.grantAt, record, Option.map_some]
  rfl

theorem formGroup_eq {v : Nat} {hb : GrantBinding} (running : (s.loop b.loop).state ≠ .idle) (fresh : (s.loop b.loop).state ≠ .holdover)
    (free : s.grantAt p = none) (live : s.grantAt hd.port = some h) (binding : h.binding = some hb)
    (settled : ∀ t f tol cut, h.retune ≠ some (.newLoop t f tol cut)) :
    let given := (s.switch.giveDivider s.loops.loops s.station.station gi b.loop v).request s.loops.loops s.station.station p
      (if (s.loop b.loop).state = .locked then .loop b.loop b.d (some gi) else if a.policy = .fallback then .fallback a.fd else .none)
    (s.formGroup p a b hd h gi v).1 =
      { s with
        engine := s.groupFormed p a b hd h gi v,
        switch := if h.state = .active ∨ (h.state = .degraded ∧ h.policy = .keep) then
            given.request s.loops.loops s.station.station hd.port (.loop hb.loop (h.drivenDivider hb) (some gi))
          else given } := by
  intro given
  have apart : hd.port ≠ p := by
    intro same
    rw [same, free] at live
    cases live
  have newGrant (u : SwitchUnit) : ({ s with engine := s.groupFormed p a b hd h gi v, switch := u } : State).grantAt p =
      some (newGrantOf a (s.nextGen p) b (some gi)) := (rd_wr_ne _ _ _ _ apart.symm).trans (rd_wr_same _ _ _)
  have aligned (u : SwitchUnit) : ({ s with engine := s.groupFormed p a b hd h gi v, switch := u } : State).grantAt hd.port =
      some { h with group := some gi } := rd_wr_same _ _ _
  have target (u : SwitchUnit) := newGrant_target (s := s) (t := { s with engine := s.groupFormed p a b hd h gi v, switch := u }) (a := a)
    (s.nextGen p) (some gi) (loopsStarting_running running b.entry).symm fresh
  have given' : ((({ s with engine := s.groupFormed p a b hd h gi v } : State).giveDivider gi b.loop v).requestByState p) =
      { s with engine := s.groupFormed p a b hd h gi v, switch := given } := by
    rw [State.giveDivider, requestByState_live (newGrant _), target]
    rfl
  unfold State.formGroup
  dsimp only
  rw [formGroup_engine running apart live, given']
  by_cases runs : h.onItsLoop = true
  · rw [if_pos runs, if_pos (onItsLoop_iff.mp runs), requestByState_live (aligned _), alignedTarget binding settled runs]
    rfl
  · rw [if_neg runs, if_neg (fun state => runs (onItsLoop_iff.mpr state))]

/-- The grant engine once a new grant has joined a group (01 R16). -/
def State.groupJoined (s : State) (p : PortIx) (a : RequestArgs) (b : GrantBinding) (gi : GroupIx) (gr : Group) (v : Nat) : GrantEngine :=
  { generations := wr s.engine.generations p (s.nextGen p),
    grants := wr s.engine.grants p (some (newGrantOf a (s.nextGen p) b (some gi))),
    lists := wr s.engine.lists b.loop (rd s.engine.lists b.loop ++ [{ handle := { port := p, gen := s.nextGen p }, d := b.d, role := .current }]),
    groups := wr s.engine.groups gi (some { gr with g := v, members := gr.members ++ [{ port := p, gen := s.nextGen p }] }) }

theorem joinGroup_engine {v : Nat} {gr : Group} (running : (s.loop b.loop).state ≠ .idle) :
    (s.addGrant p a b (some gi)).setGroup gi (some { gr with g := v, members := gr.members ++ [{ port := p, gen := s.nextGen p }] }) =
      { s with engine := s.groupJoined p a b gi gr v } := by
  rw [addGrant_running p a (some gi) running]
  rfl

theorem joinGroup_eq {v : Nat} {gr : Group} (running : (s.loop b.loop).state ≠ .idle) (fresh : (s.loop b.loop).state ≠ .holdover) :
    (s.joinGroup p a b gi gr v).1 =
      { s with
        engine := s.groupJoined p a b gi gr v,
        switch := (if v = gr.g then s.switch else s.switch.giveDivider s.loops.loops s.station.station gi b.loop v).request
          s.loops.loops s.station.station p
          (if (s.loop b.loop).state = .locked then .loop b.loop b.d (some gi) else if a.policy = .fallback then .fallback a.fd else .none) } := by
  have newGrant (u : SwitchUnit) : ({ s with engine := s.groupJoined p a b gi gr v, switch := u } : State).grantAt p =
      some (newGrantOf a (s.nextGen p) b (some gi)) := rd_wr_same _ _ _
  have target (u : SwitchUnit) := newGrant_target (s := s) (t := { s with engine := s.groupJoined p a b gi gr v, switch := u }) (a := a)
    (s.nextGen p) (some gi) (loopsStarting_running running b.entry).symm fresh
  have given : (if v = gr.g then ({ s with engine := s.groupJoined p a b gi gr v } : State)
      else ({ s with engine := s.groupJoined p a b gi gr v } : State).giveDivider gi b.loop v) =
      { s with engine := s.groupJoined p a b gi gr v,
               switch := if v = gr.g then s.switch else s.switch.giveDivider s.loops.loops s.station.station gi b.loop v } := by
    split <;> rfl
  unfold State.joinGroup
  dsimp only
  rw [joinGroup_engine running, given, requestByState_live (newGrant _), target]
  rfl

end Grouped

/-- Settles O19: the lowest free group is formed, its divider given, the new port switched, and the aligned port where it runs from the loop. -/
theorem alignedRequestFormsGroup : Obligations.AlignedRequestFormsGroup := by
  unfold Obligations.AlignedRequestFormsGroup
  intro s slot tag a hd h hb d gi ready released acceptable free aligned live binding unstranded settled usable running matched ungrouped
    unused lowest multiple p gen g grant own target given realigned
  let b : GrantBinding := { loop := hb.loop, entry := hb.entry, d := d }
  have served : s.serveRequest slot a = ((s.formGroup p a b hd h gi g).1, requestAnswer p gen a (some gi)) := by
    rw [serveRequest_aligned released acceptable free aligned, serveAligned_bound s _ a hd h hb live settled binding unstranded,
      alignBound_ungrouped usable matched ungrouped, freeGroup_least s gi unused lowest]
    exact if_neg (Nat.not_lt.mpr multiple)
  refine (exec_slotRow_served (r := .request a) tag ready served).trans ?_
  rw [formGroup_eq (b := b) running usable free (resolve_some live).1 binding settled, State.groupFormed, newGrantOf_eq]
  rfl

/-- Settles O20: the new grant joins at the tail, and a multiple that has grown is given. -/
theorem alignedRequestJoinsGroup : Obligations.AlignedRequestJoinsGroup := by
  unfold Obligations.AlignedRequestJoinsGroup
  intro s slot tag a hd h hb d gi gr ready released acceptable free aligned live binding unstranded settled usable running matched group
    record room multiple p gen g grant own target
  let b : GrantBinding := { loop := hb.loop, entry := hb.entry, d := d }
  have served : s.serveRequest slot a = ((s.joinGroup p a b gi gr g).1, requestAnswer p gen a (some gi)) := by
    rw [serveRequest_aligned released acceptable free aligned, serveAligned_bound s _ a hd h hb live settled binding unstranded,
      alignBound_grouped usable matched group record]
    exact if_neg (not_or.mpr ⟨Nat.not_le.mpr room, Nat.not_lt.mpr multiple⟩)
  refine (exec_slotRow_served (r := .request a) tag ready served).trans ?_
  rw [joinGroup_eq (b := b) running usable, State.groupJoined, newGrantOf_eq]
  rfl

end Sys2Proof.Machine

/-! The port target by grant state (Table 1-7, 06 R108), the checks of a RETUNE, and the RETUNE of a STRANDED grant (06 R109 to R111, R119). -/

namespace Sys2Proof.Machine

/-! ### Port targets -/

section Target

variable {s : State} {g : Grant} {b : GrantBinding}

theorem loopSource_bound (binding : g.binding = some b) : g.loopSource = .loop b.loop b.d g.group := by simp only [Grant.loopSource, binding]

theorem tableTarget_pending (pending : g.state = .pending) (binding : g.binding = some b) :
    s.tableTarget g = if (s.loop b.loop).usable then .loop b.loop b.d g.group else g.pendingSource := by
  simp only [State.tableTarget, pending, binding, loopSource_bound binding]

theorem tableTarget_degraded (degraded : g.state = .degraded) (policy : g.policy ≠ .keep) : s.tableTarget g = g.pendingSource := by
  simp only [State.tableTarget, degraded, if_neg policy]

theorem tableTarget_stranded (stranded : g.state = .stranded) : s.tableTarget g = g.pendingSource := by simp only [State.tableTarget, stranded]

theorem portTarget_settled (settled : g.retune = none) : s.portTarget g = s.tableTarget g := by simp only [State.portTarget, settled]

theorem portTarget_awaiting {t : GrantBinding} {f tol : Nat} (awaiting : g.retune = some (.newLoop t f tol .awaitingLock)) :
    s.portTarget g = s.tableTarget g := by simp only [State.portTarget, awaiting]

theorem portTarget_cutOver {t : GrantBinding} {f tol : Nat} (flight : g.retune = some (.newLoop t f tol .inFlight)) :
    s.portTarget g = .loop t.loop t.d none := by simp only [State.portTarget, flight]

theorem portTarget_sameLoop {d f tol : Nat} (binding : g.binding = some b) (flight : g.retune = some (.sameLoop d f tol)) :
    s.portTarget g = .loop b.loop d g.group := by simp only [State.portTarget, flight, binding]

theorem pendingSource_fallback {fd : Nat} (policy : g.policy = .fallback) (divider : g.fd = some fd) : g.pendingSource = .fallback fd := by
  simp only [Grant.pendingSource, policy, divider]

theorem pendingSource_other (policy : g.policy ≠ .fallback) : g.pendingSource = .none := by
  cases which : g.policy with
  | fallback => exact absurd which policy
  | stop => simp only [Grant.pendingSource, which]
  | keep => simp only [Grant.pendingSource, which]

end Target

/-- Settles O27: the rows of Table 1-7, once a retune in flight has been set aside. -/
theorem portTargetByState : Obligations.PortTargetByState := by
  unfold Obligations.PortTargetByState
  intro s g
  refine ⟨fun fd => pendingSource_fallback, pendingSource_other, fun b d f tol => portTarget_sameLoop,
    fun t f tol => portTarget_cutOver, fun waits => ?table⟩
  case table =>
    have table : s.portTarget g = s.tableTarget g := by
      rcases waits with settled | ⟨t, f, tol, awaiting⟩
      · exact portTarget_settled settled
      · exact portTarget_awaiting awaiting
    rw [table]
    refine ⟨fun b binding => ⟨fun pending usable => ?usable, fun pending unlocked running => ?unusable, fun active => ?active,
      fun degraded keep => ?kept, fun degraded => tableTarget_degraded degraded⟩, tableTarget_stranded⟩
    case usable => rw [tableTarget_pending pending binding, if_pos (usable_iff.mpr usable)]
    case unusable => rw [tableTarget_pending pending binding, if_neg fun usable => (usable_iff.mp usable).elim unlocked running]
    case active => rw [tableTarget_onItsLoop (onItsLoop_iff.mpr (.inl active)), loopSource_bound binding]
    case kept => rw [tableTarget_onItsLoop (onItsLoop_iff.mpr (.inr ⟨degraded, keep⟩)), loopSource_bound binding]

/-! ### The checks of a RETUNE, each with those before it passed (06 R109, R111) -/

section Checks

variable {s : State} {slot : SlotIx} {a : RetuneArgs} {h : Handle} {g : Grant} {b : GrantBinding} {f tol : Nat} {gap : Bool}

theorem serveRetune_held (hold : s.maint.hold = true) : s.serveRetune slot a = (s, Answer.bare .held) := by
  simp [State.serveRetune, hold]

theorem serveRetune_notOwn (released : s.maint.hold = false) (notOwn : ownHandle slot a.handle = none) :
    s.serveRetune slot a = (s, Answer.bare .badRequest) := by
  simp [State.serveRetune, released, notOwn]

theorem serveRetune_outOfRange (released : s.maint.hold = false) (outside : targetInRange a.f a.tol = false) :
    s.serveRetune slot a = (s, Answer.bare .badRequest) := by
  cases own : ownHandle slot a.handle <;> simp [State.serveRetune, released, own, outside]

/-- A RETUNE past the checks on its fields and its handle. -/
theorem serveRetune_resolved (released : s.maint.hold = false) (own : ownHandle slot a.handle = some h) (inside : targetInRange a.f a.tol = true) :
    s.serveRetune slot a = match s.resolve h with
      | none => (s, Answer.bare .stale)
      | some g =>
        if g.retune.isSome then (s, Answer.bare .retuneBusy)
        else
          match g.binding with
          | none => s.retuneFresh h a.f a.tol
          | some b => s.retuneBound h g b a.f a.tol a.allowGap := by
  simp [State.serveRetune, released, own, inside] <;> rfl

theorem retuneFresh_failed (failed : s.allocate f tol none = none) : s.retuneFresh h f tol = (s, Answer.bare (s.refusal f tol)) := by
  rw [State.retuneFresh, failed]

theorem retuneBound_unmatched (unmatched : matchEntry s.plan s.station.rate b.entry f tol = none) : s.retuneBound h g b f tol gap =
    if g.group.isSome then (s, Answer.bare .alignRefused) else s.retuneElsewhere h g b f tol gap := by
  rw [State.retuneBound, unmatched]

/-- With no other loop the RETUNE fails as an allocation does, but for the allow-gap restart (06 R118, R119). -/
theorem retuneElsewhere_refused (failed : s.allocate f tol (some b.loop) = none)
    (closed : s.refusal f tol = .noMatch ∨ gap = false ∨ (s.list b.loop).length ≠ 1) :
    s.retuneElsewhere h g b f tol gap = (s, Answer.bare (s.refusal f tol)) := by
  rw [State.retuneElsewhere, failed]
  cases search : findEntry s.plan s.station.rate f tol with
  | none => simp [State.refusal, anyEntrySatisfies, search]
  | some found =>
    have status : s.refusal f tol = .noLoop := by simp [State.refusal, anyEntrySatisfies, search]
    have closed' : ¬ (gap = true ∧ (s.list b.loop).length = 1) := by
      rintro ⟨open', single⟩
      rcases closed with noMatch | noGap | shared
      · rw [status] at noMatch
        cases noMatch
      · rw [noGap] at open'
        cases open'
      · exact shared single
    rw [status]
    exact if_neg closed'

/-- Attempt (b) is refused when the value formed would exceed 4,096 (06 R112). -/
theorem retuneBound_beyond {d : Nat} {gi : GroupIx} {gr : Group} (matched : matchEntry s.plan s.station.rate b.entry f tol = some d) (other : d ≠ b.d)
    (group : g.group = some gi) (record : rd s.engine.groups gi = some gr) (beyond : 4096 < s.retuneValue h gr d) :
    s.retuneBound h g b f tol gap = (s, Answer.bare .alignRefused) := by
  rw [State.retuneBound, matched]
  dsimp only
  rw [if_neg other, State.retuneSameLoop, groupOf_some group record]
  exact if_pos ⟨rfl, beyond⟩

theorem refusal_of_matched (matched : ¬ ∀ i, matchEntry s.plan s.station.rate i f tol = none) : s.refusal f tol = .noLoop :=
  refusal_eq_noLoop (by
    obtain ⟨i, satisfied⟩ := not_forall.mp matched
    exact ⟨i, Option.isSome_iff_ne_none.mpr satisfied⟩)

end Checks

/-- Settles O28: each check of a RETUNE in turn, and the status of a RETUNE that nothing serves. -/
theorem retuneRefused : Obligations.RetuneRefused := by
  unfold Obligations.RetuneRefused
  intro s slot tag h f tol gap ready asked refused inRange unmatched
  have answered {o st} (served : s.serveRetune slot (asked o) = (s, Answer.bare st)) :
      exec (.retune slot tag (asked o)) s = .next (s.answer slot tag { status := st, payload := [] }) :=
    exec_slotRow_refused (r := .retune (asked o)) tag ready served
  refine ⟨fun hold => answered (serveRetune_held hold), fun released => ⟨answered (serveRetune_notOwn released rfl), ?bad, fun own inside => ?live⟩⟩
  case bad =>
    rintro (foreign | outside)
    · exact answered (serveRetune_notOwn released (ownHandle_foreign foreign))
    · exact answered (serveRetune_outOfRange released (Bool.eq_false_iff.mpr (mt (targetInRange_iff f tol).mp outside)))
  case live =>
    have resolved := serveRetune_resolved (a := asked (some h)) released (ownHandle_own own) ((targetInRange_iff f tol).mpr inside)
    refine ⟨fun stale => answered (by rw [resolved, stale]), fun g live => ⟨fun busy => answered (by rw [resolved, live]; exact if_pos busy),
      fun settled => ?settled⟩⟩
    case settled =>
      have idle : ¬ g.retune.isSome = true := by simp [settled]
      refine ⟨fun unbound failed => ?fresh, fun b binding => ?bound⟩
      case fresh =>
        have served : s.serveRetune slot (asked (some h)) = (s, Answer.bare (s.refusal f tol)) := by
          rw [resolved, live]
          dsimp only
          rw [if_neg idle, unbound]
          exact retuneFresh_failed failed
        exact ⟨fun none' => answered (refusal_eq_noMatch none' ▸ served), fun some' => answered (refusal_of_matched some' ▸ served)⟩
      case bound =>
        have bound {st} (served : s.retuneBound h g b f tol gap = (s, Answer.bare st)) : refused st := answered (by
          rw [resolved, live]
          dsimp only
          rw [if_neg idle, binding]
          exact served)
        refine ⟨fun nothing => ⟨fun grouped => bound ((retuneBound_unmatched nothing).trans (if_pos grouped)), fun ungrouped failed => ?ungrouped⟩,
          fun d gi gr matched other group record beyond => bound (retuneBound_beyond matched other group record beyond)⟩
        case ungrouped =>
          have elsewhere {st} (served : s.retuneElsewhere h g b f tol gap = (s, Answer.bare st)) : refused st :=
            bound ((retuneBound_unmatched nothing).trans ((if_neg (by simp [ungrouped])).trans served))
          exact ⟨fun none' => elsewhere (refusal_eq_noMatch none' ▸ retuneElsewhere_refused failed (.inl (refusal_eq_noMatch none'))),
            fun some' closed => elsewhere (refusal_of_matched some' ▸ retuneElsewhere_refused failed (.inr closed))⟩

end Sys2Proof.Machine

/-! The RETUNEs that are carried out (06 R110 to R118): of a STRANDED grant, on the grant's own loop, on another loop, and by a restart. -/

namespace Sys2Proof.Machine

/-! ### The grant record and the attempts -/

section Served

variable {s : State} {slot : SlotIx} {a : RetuneArgs} {h : Handle} {g : Grant} {b : GrantBinding} {f tol d : Nat} {gap : Bool}

theorem updGrant_live {p : PortIx} (live : s.grantAt p = some g) (F : Grant → Grant) :
    s.updGrant p F = { s with engine := { s.engine with grants := wr s.engine.grants p (some (F g)) } } := by
  rw [State.updGrant, live]
  rfl

theorem serveRetune_live (released : s.maint.hold = false) (own : h.port.val / 2 = slot.val) (inside : 1 ≤ f ∧ f ≤ 250000000 ∧ 1 ≤ tol ∧ tol ≤ 500)
    (resolved : s.resolve h = some g) (settled : g.retune = none) :
    s.serveRetune slot { handle := some h, f := f, tol := tol, allowGap := gap } = match g.binding with
      | none => s.retuneFresh h f tol
      | some b => s.retuneBound h g b f tol gap := by
  rw [serveRetune_resolved released (ownHandle_own own) ((targetInRange_iff f tol).mpr inside), resolved]
  dsimp only
  exact if_neg (by simp [settled])

/-! ### A STRANDED grant (06 R110) -/

theorem handle_eq (gen : g.gen = h.gen) : g.handle h.port = h := by rw [Grant.handle, gen]

theorem bindCurrent_live (live : s.grantAt h.port = some g) (gen : g.gen = h.gen)
    (free : (s.loop b.loop).state = .idle → (s.loop b.loop).failed = none) : s.bindCurrent h.port b =
    { s with
      engine := { s.engine with
        grants := wr s.engine.grants h.port (some { g with binding := some b }),
        lists := wr s.engine.lists b.loop (rd s.engine.lists b.loop ++ [{ handle := h, d := b.d, role := .current }]) },
      loops := s.loopsStarting b.loop b.entry } := by
  rw [State.bindCurrent, live]
  dsimp only
  rw [updGrant_live live, handle_eq gen]
  exact appendBinding_eq (s := { s with engine := { s.engine with grants := wr s.engine.grants h.port (some { g with binding := some b }) } })
    b.entry _ free

/-- After a binding has been appended a loop is usable only where it was. -/
theorem loopsStarting_usable {t : State} {k : LoopIx} {i : EntryIx} (loops : t.loops = s.loopsStarting k i) (fresh : (s.loop k).state ≠ .holdover) :
    (t.loop k).usable = true ↔ (s.loop k).state = .locked := by
  rw [State.loop, loops, State.loopsStarting]
  by_cases idle : (s.loop k).state = .idle
  · rw [if_pos idle, rd_wr_same, started_notUsable, idle]
    simp
  · rw [if_neg idle, usable_iff]
    exact ⟨fun either => either.resolve_right fresh, .inl⟩

theorem allocate_unfailed {ex : Option LoopIx} (found : s.allocate f tol ex = some b) : (s.loop b.loop).state = .idle → (s.loop b.loop).failed = none :=
  fun idle => by
    obtain ⟨-, -, ⟨-, failed⟩ | ⟨running, -⟩⟩ := allocate_found s f tol ex b found
    · exact failed
    · rw [idle] at running
      simp at running

theorem allocate_notHoldover {ex : Option LoopIx} (found : s.allocate f tol ex = some b) : (s.loop b.loop).state ≠ .holdover :=
  fun holdover => by
    obtain ⟨-, -, state⟩ := allocate_found s f tol ex b found
    rw [holdover] at state
    simp at state

/-- A STRANDED grant bound again (06 R110), before its port is requested. -/
def State.freshlyBound (s : State) (h : Handle) (g : Grant) (f tol : Nat) (b : GrantBinding) : State :=
  { s with
    engine := { s.engine with
      grants := wr s.engine.grants h.port (some { g with f := f, tol := tol, state := .pending, binding := some b }),
      lists := wr s.engine.lists b.loop (rd s.engine.lists b.loop ++ [{ handle := h, d := b.d, role := .current }]) },
    loops := s.loopsStarting b.loop b.entry }

theorem freshlyBound_live : (s.freshlyBound h g f tol b).grantAt h.port = some { g with f := f, tol := tol, state := .pending, binding := some b } :=
  rd_wr_same _ _ _

theorem freshlyBound_target (settled : g.retune = none) (fresh : (s.loop b.loop).state ≠ .holdover) :
    (s.freshlyBound h g f tol b).portTarget { g with f := f, tol := tol, state := .pending, binding := some b } =
      if (s.loop b.loop).state = .locked then .loop b.loop b.d g.group else g.pendingSource := by
  let bound : Grant := { g with f := f, tol := tol, state := .pending, binding := some b }
  rw [portTarget_settled (g := bound) settled, tableTarget_pending (g := bound) rfl rfl]
  exact if_congr (loopsStarting_usable (t := s.freshlyBound h g f tol b) rfl fresh) rfl rfl

theorem retuneFresh_found (live : s.grantAt h.port = some g) (gen : g.gen = h.gen) (settled : g.retune = none) (found : s.allocate f tol none = some b) :
    s.retuneFresh h f tol = ((s.freshlyBound h g f tol b).requestSwitch h.port
      (if (s.loop b.loop).state = .locked then .loop b.loop b.d g.group else g.pendingSource), retuneAnswer h .pending .fresh false (some b)) := by
  let pending : Grant := { g with f := f, tol := tol, state := .pending }
  have bound := bindCurrent_live (s := { s with engine := { s.engine with grants := wr s.engine.grants h.port (some pending) } })
    (g := pending) (rd_wr_same _ _ _) gen (allocate_unfailed found)
  have prepared : (s.updGrant h.port (fun g => { g with f := f, tol := tol, state := .pending })).bindCurrent h.port b =
      s.freshlyBound h g f tol b := by
    rw [updGrant_live live, bound]
    simp only [wr_wr]
    rfl
  rw [State.retuneFresh, found]
  dsimp only
  rw [prepared, requestByState_live freshlyBound_live, freshlyBound_target settled (allocate_notHoldover found)]

end Served

/-- Settles O29: the record is bound to what allocation found, and its port requested by the state PENDING. -/
theorem retuneOfStrandedGrant : Obligations.RetuneOfStrandedGrant := by
  unfold Obligations.RetuneOfStrandedGrant
  intro s slot tag h g f tol gap b ready released own inside resolved stranded unbound settled found bound started loops target
  obtain ⟨live, gen⟩ := resolve_some resolved
  refine (exec_slotRow_served (r := .retune { handle := some h, f := f, tol := tol, allowGap := gap }) tag ready
    (a := retuneAnswer h .pending .fresh false (some b)) ?_).trans rfl
  refine (serveRetune_live released own inside resolved settled).trans ?_
  rw [unbound]
  exact retuneFresh_found live gen settled found

end Sys2Proof.Machine

/-! The RETUNE on the grant's own loop (06 R111 to R114): the target alone, the divider at once, or a SAME_LOOP retune in flight. -/

namespace Sys2Proof.Machine

section OwnLoop

variable {s : State} {h : Handle} {g : Grant} {b : GrantBinding} {gi : GroupIx} {gr : Group} {f tol d v : Nat} {gap : Bool}

/-! ### A divider carried out (06 R112, R114) -/

/-- The grant engine with the divider of H's binding on loop K changed in place (01 R5). -/
def State.dividerMoved (s : State) (h : Handle) (k : LoopIx) (d : Nat) : GrantEngine :=
  { s.engine with lists := wr s.engine.lists k ((rd s.engine.lists k).map (fun x => if x.handle = h then { x with d := d } else x)) }

/-- The same, with the grant record M on H's port. -/
def State.redivided (s : State) (h : Handle) (m : Grant) (k : LoopIx) (d : Nat) : GrantEngine :=
  { s.dividerMoved h k d with grants := wr s.engine.grants h.port (some m) }

/-- A grant with the divider and the target of a retune carried out on its own loop. -/
def Grant.retunedTo (g : Grant) (b : GrantBinding) (d f tol : Nat) : Grant :=
  { g with f := f, tol := tol, binding := some { b with d := d }, retune := none }

theorem applyDivider_steps (live : s.grantAt h.port = some g) (gen : g.gen = h.gen) (binding : g.binding = some b) :
    s.applyDivider h.port d f tol =
      (({ s with engine := s.redivided h (g.retunedTo b d f tol) b.loop d } : State).growGroup g.group d).raiseRetuned h.port := by
  simp only [State.applyDivider, live, binding, handle_eq gen, updGrant_live live]
  rfl

/-- RETUNED raised for a grant whose record M has just been written. -/
theorem raiseRetuned_written (e : GrantEngine) (p : PortIx) (m : Grant) :
    ({ s with engine := { e with grants := wr e.grants p (some m) } } : State).raiseRetuned p =
      { s with engine := { e with grants := wr e.grants p (some { m with mark := false }) }, notices := s.notices.raise p .retuned } := by
  have recorded : ({ s with engine := { e with grants := wr e.grants p (some m) } } : State).grantAt p = some m := rd_wr_same _ _ _
  rw [State.raiseRetuned, updGrant_live recorded]
  simp only [wr_wr]
  rfl

theorem applyDivider_ungrouped (live : s.grantAt h.port = some g) (gen : g.gen = h.gen) (binding : g.binding = some b) (group : g.group = none) :
    s.applyDivider h.port d f tol =
      { s with engine := s.redivided h { g.retunedTo b d f tol with mark := false } b.loop d, notices := s.notices.raise h.port .retuned } := by
  rw [applyDivider_steps live gen binding, group]
  exact raiseRetuned_written (s.dividerMoved h b.loop d) h.port _

theorem applyDivider_grouped (live : s.grantAt h.port = some g) (gen : g.gen = h.gen) (binding : g.binding = some b) (group : g.group = some gi)
    (record : rd s.engine.groups gi = some gr) : s.applyDivider h.port d f tol =
    { s with
      engine := { s.redivided h { g.retunedTo b d f tol with mark := false } b.loop d with
        groups := wr s.engine.groups gi (some { gr with g := Nat.lcm gr.g d }) },
      notices := s.notices.raise h.port .retuned } := by
  let engine := s.redivided h (g.retunedTo b d f tol) b.loop d
  have grown : ({ s with engine := engine } : State).growGroup (some gi) d =
      { s with engine := { engine with groups := wr s.engine.groups gi (some { gr with g := Nat.lcm gr.g d }) } } := by
    have record' : rd engine.groups gi = some gr := record
    simp only [State.growGroup, record']
    rfl
  rw [applyDivider_steps live gen binding, group, grown]
  exact raiseRetuned_written { s.dividerMoved h b.loop d with groups := wr s.engine.groups gi (some { gr with g := Nat.lcm gr.g d }) } h.port _

/-! ### The attempts of 06 R111 on the grant's own loop -/

theorem retuneBound_same (matched : matchEntry s.plan s.station.rate b.entry f tol = some b.d) :
    s.retuneBound h g b f tol gap = s.retuneSameBinding h g f tol := by
  rw [State.retuneBound, matched]
  exact if_pos rfl

theorem retuneBound_other (matched : matchEntry s.plan s.station.rate b.entry f tol = some d) (other : d ≠ b.d) :
    s.retuneBound h g b f tol gap = s.retuneSameLoop h g b d f tol := by
  rw [State.retuneBound, matched]
  exact if_neg other

theorem retuneSameBinding_eq (live : s.grantAt h.port = some g) : s.retuneSameBinding h g f tol =
    ({ s with
        engine := { s.engine with grants := wr s.engine.grants h.port (some { g with f := f, tol := tol, mark := false }) },
        notices := s.notices.raise h.port .retuned },
     retuneAnswer h g.state .sameBinding false none) := by
  rw [State.retuneSameBinding, updGrant_live live, raiseRetuned_written]

/-- The port switch unit given a group's value, where there is a group. -/
def State.groupGiven (s : State) (group : Option (GroupIx × Group)) (k : LoopIx) (v : Nat) : SwitchUnit :=
  match group with
  | some (gi, _) => s.switch.giveDivider s.loops.loops s.station.station gi k v
  | none => s.switch

theorem retuneInFlight_eq {o : Option GroupIx} (live : s.grantAt h.port = some g) (binding : g.binding = some b) (grouped : g.group = o)
    (group : Option (GroupIx × Group)) :
    s.retuneInFlight h b group v d f tol =
      { s with
        engine := { s.engine with grants := wr s.engine.grants h.port (some { g with retune := some (.sameLoop d f tol) }) },
        switch := (s.groupGiven group b.loop v).request s.loops.loops s.station.station h.port (.loop b.loop d o) } := by
  subst grouped
  let flying : Grant := { g with retune := some (.sameLoop d f tol) }
  have recorded (u : SwitchUnit) :
      ({ s with engine := { s.engine with grants := wr s.engine.grants h.port (some flying) }, switch := u } : State).grantAt h.port = some flying :=
    rd_wr_same _ _ _
  unfold State.retuneInFlight
  dsimp only
  rw [updGrant_live live]
  rcases group with _ | ⟨gi, gr⟩
  · exact (requestByState_live (recorded _)).trans (by rw [portTarget_sameLoop (g := flying) binding rfl]; rfl)
  · exact (requestByState_live (recorded (s.groupGiven (some (gi, gr)) b.loop v))).trans
      (by rw [portTarget_sameLoop (g := flying) binding rfl]; rfl)

theorem below_iff (dv : GroupDivider) : GroupDivider.below (some dv) v = true ↔ dv.value < v ∨ ∃ w, dv.pendingValue = some w ∧ w < v := by
  cases pending : dv.pendingValue <;> simp [GroupDivider.below, pending]

/-- Attempt (b) at once for an ungrouped grant. -/
theorem retuneAtOnce_ungrouped (live : s.grantAt h.port = some g) (gen : g.gen = h.gen) (binding : g.binding = some b) (group : g.group = none) :
    let moved : Grant := { g.retunedTo b d f tol with mark := false }
    s.retuneAtOnce h b none v d f tol =
      { s with
        engine := s.redivided h moved b.loop d,
        notices := s.notices.raise h.port .retuned,
        switch := s.switch.request s.loops.loops s.station.station h.port (s.portTarget moved) } := by
  intro moved
  have recorded : ({ s with engine := s.redivided h moved b.loop d, notices := s.notices.raise h.port .retuned } : State).grantAt h.port =
      some moved := rd_wr_same _ _ _
  unfold State.retuneAtOnce
  dsimp only
  rw [applyDivider_ungrouped live gen binding group, requestByState_live recorded, portTarget_congr (s := s) rfl]
  rfl

/-- And for a grouped grant: the port switch unit is given the value formed when that exceeds the one it has. -/
theorem retuneAtOnce_grouped (live : s.grantAt h.port = some g) (gen : g.gen = h.gen) (binding : g.binding = some b) (group : g.group = some gi)
    (record : rd s.engine.groups gi = some gr) :
    let moved : Grant := { g.retunedTo b d f tol with mark := false }
    s.retuneAtOnce h b (some (gi, gr)) v d f tol =
      { s with
        engine := { s.redivided h moved b.loop d with groups := wr s.engine.groups gi (some { gr with g := Nat.lcm gr.g d }) },
        notices := s.notices.raise h.port .retuned,
        switch := (if GroupDivider.below (rd s.switch.dividers gi) v then s.switch.giveDivider s.loops.loops s.station.station gi b.loop v
          else s.switch).request s.loops.loops s.station.station h.port (s.portTarget moved) } := by
  intro moved
  let engine : GrantEngine := { s.redivided h moved b.loop d with groups := wr s.engine.groups gi (some { gr with g := Nat.lcm gr.g d }) }
  let t (u : SwitchUnit) : State := { s with engine := engine, notices := s.notices.raise h.port .retuned, switch := u }
  have recorded (u : SwitchUnit) : (t u).grantAt h.port = some moved := rd_wr_same _ _ _
  have given : (if GroupDivider.below (rd s.switch.dividers gi) v then (t s.switch).giveDivider gi b.loop v else t s.switch) =
      t (if GroupDivider.below (rd s.switch.dividers gi) v then s.switch.giveDivider s.loops.loops s.station.station gi b.loop v
        else s.switch) := by
    split <;> rfl
  unfold State.retuneAtOnce
  dsimp only
  rw [applyDivider_grouped live gen binding group record]
  refine (congrArg (State.requestByState · h.port) given).trans ?_
  rw [requestByState_live (recorded _), portTarget_congr (s := s) rfl]
  rfl

end OwnLoop

section SameLoop

variable {s : State} {h : Handle} {g : Grant} {b : GrantBinding} {gi : GroupIx} {gr : Group} {f tol d : Nat}

theorem retuneSameLoop_ungrouped (group : g.group = none) : s.retuneSameLoop h g b d f tol =
    if g.state = .active then (s.retuneInFlight h b none d d f tol, retuneAnswer h g.state .sameLoop true none)
    else (s.retuneAtOnce h b none d d f tol, retuneAnswer h g.state .sameLoop false (some { b with d := d })) := by
  rw [State.retuneSameLoop, groupOf_none group]
  exact if_neg (by simp)

theorem retuneSameLoop_grouped (group : g.group = some gi) (record : rd s.engine.groups gi = some gr) (within : s.retuneValue h gr d ≤ 4096) :
    s.retuneSameLoop h g b d f tol =
      if g.state = .active then
        (s.retuneInFlight h b (some (gi, gr)) (s.retuneValue h gr d) d f tol, retuneAnswer h g.state .sameLoop true none)
      else
        (s.retuneAtOnce h b (some (gi, gr)) (s.retuneValue h gr d) d f tol, retuneAnswer h g.state .sameLoop false (some { b with d := d })) := by
  rw [State.retuneSameLoop, groupOf_some group record]
  exact if_neg (fun beyond => absurd beyond.2 (Nat.not_lt.mpr within))

end SameLoop

/-- Settles O30: the same binding, a SAME_LOOP retune of an ACTIVE grant, and the divider taken at once by any other. -/
theorem retuneOnOwnLoop : Obligations.RetuneOnOwnLoop := by
  unfold Obligations.RetuneOnOwnLoop
  intro s slot tag h g f tol gap b d ready released own inside resolved settled binding matched p asked head same moved flying list
  obtain ⟨live, gen⟩ := resolve_some resolved
  have answered {t a} (bound : s.retuneBound h g b f tol gap = (t, a)) : exec asked s = .next (t.answer slot tag a) := by
    refine exec_slotRow_served (r := .retune { handle := some h, f := f, tol := tol, allowGap := gap }) tag ready ?_
    refine (serveRetune_live released own inside resolved settled).trans ?_
    rw [binding]
    exact bound
  have moves : { g.retunedTo b d f tol with mark := false } = moved := by
    simp only [moved, Grant.retunedTo, settled]
  refine ⟨fun unchanged => ?same, fun other ungrouped active => ?flight, fun other ungrouped inactive => ?atOnce,
    fun gi gr other group record within => ⟨fun active => ?groupFlight, fun inactive dv divider => ?groupAtOnce⟩⟩
  case same =>
    rw [answered ((retuneBound_same (unchanged ▸ matched)).trans (retuneSameBinding_eq live))]
    rfl
  case flight =>
    rw [answered ((retuneBound_other matched other).trans ((retuneSameLoop_ungrouped ungrouped).trans (if_pos active))),
      retuneInFlight_eq live binding ungrouped]
    rfl
  case atOnce =>
    rw [answered ((retuneBound_other matched other).trans ((retuneSameLoop_ungrouped ungrouped).trans (if_neg inactive))),
      retuneAtOnce_ungrouped live gen binding ungrouped, moves]
    rfl
  case groupFlight =>
    rw [answered ((retuneBound_other matched other).trans ((retuneSameLoop_grouped group record within).trans (if_pos active))),
      retuneInFlight_eq live binding group]
    rfl
  case groupAtOnce =>
    rw [answered ((retuneBound_other matched other).trans ((retuneSameLoop_grouped group record within).trans (if_neg inactive))),
      retuneAtOnce_grouped live gen binding group record, moves, divider]
    simp only [below_iff]
    rfl

end Sys2Proof.Machine

/-! The RETUNE off the grant's binding (06 R111, R115, R116, R118): another loop with its cut-over, and the allow-gap restart. -/

namespace Sys2Proof.Machine

section Elsewhere

variable {s : State} {h : Handle} {g : Grant} {b t : GrantBinding} {f tol d : Nat} {gap : Bool} {i : EntryIx}

/-! ### Another loop (06 R115, R116) -/

/-- After a binding has been appended a loop is LOCKED only where it was. -/
theorem loopsStarting_locked {u : State} {k : LoopIx} (loops : u.loops = s.loopsStarting k i) :
    (u.loop k).state = .locked ↔ (s.loop k).state = .locked := by
  rw [State.loop, loops, State.loopsStarting]
  by_cases idle : (s.loop k).state = .idle
  · rw [if_pos idle, rd_wr_same, started_eq, idle]
    cases s.station.station <;> simp
  · rw [if_neg idle]
    rfl

/-- The card once a RETUNE_TARGET binding has been appended for a NEW_LOOP retune, its cut-over as given. -/
def State.newLoopRetuned (s : State) (h : Handle) (g : Grant) (t : GrantBinding) (f tol : Nat) (cut : CutOver) : State :=
  { s with
    engine := { s.engine with
      grants := wr s.engine.grants h.port (some { g with retune := some (.newLoop t f tol cut) }),
      lists := wr s.engine.lists t.loop (rd s.engine.lists t.loop ++ [{ handle := h, d := t.d, role := .retuneTarget }]) },
    loops := s.loopsStarting t.loop t.entry }

theorem newLoopRetuned_live (cut : CutOver) :
    (s.newLoopRetuned h g t f tol cut).grantAt h.port = some { g with retune := some (.newLoop t f tol cut) } := rd_wr_same _ _ _

theorem newLoopRetuned_cutOver : (s.newLoopRetuned h g t f tol .awaitingLock).setCutOver h.port .inFlight =
    (s.newLoopRetuned h g t f tol .inFlight).requestSwitch h.port (.loop t.loop t.d none) := by
  have flies : (s.newLoopRetuned h g t f tol .awaitingLock).updGrant h.port (fun g => { g with retune := some (.newLoop t f tol .inFlight) }) =
      s.newLoopRetuned h g t f tol .inFlight := by
    rw [updGrant_live (newLoopRetuned_live .awaitingLock)]
    simp only [State.newLoopRetuned, wr_wr]
  simp only [State.setCutOver, newLoopRetuned_live]
  rw [flies, requestByState_live (newLoopRetuned_live .inFlight), portTarget_cutOver (f := f) (tol := tol) rfl]

theorem retuneNewLoop_eq (live : s.grantAt h.port = some g) (free : (s.loop t.loop).state = .idle → (s.loop t.loop).failed = none) :
    s.retuneNewLoop h g t f tol =
      (if (s.loop t.loop).state = .locked then
          (s.newLoopRetuned h g t f tol .inFlight).requestSwitch h.port (.loop t.loop t.d none)
        else s.newLoopRetuned h g t f tol .awaitingLock,
       retuneAnswer h g.state .newLoop true none) := by
  have appended : (s.updGrant h.port (fun g => { g with retune := some (.newLoop t f tol .awaitingLock) })).appendBinding t.loop t.entry
      { handle := h, d := t.d, role := .retuneTarget } = s.newLoopRetuned h g t f tol .awaitingLock := by
    rw [updGrant_live live]
    exact appendBinding_eq (s := { s with engine := { s.engine with
      grants := wr s.engine.grants h.port (some { g with retune := some (.newLoop t f tol .awaitingLock) }) } }) t.entry _ free
  unfold State.retuneNewLoop
  dsimp only
  rw [appended, newLoopRetuned_cutOver]
  exact congrArg (Prod.mk · _) (if_congr (loopsStarting_locked (u := s.newLoopRetuned h g t f tol .awaitingLock) (i := t.entry) rfl) rfl rfl)

theorem retuneElsewhere_found (found : s.allocate f tol (some b.loop) = some t) :
    s.retuneElsewhere h g b f tol gap = s.retuneNewLoop h g t f tol := by
  rw [State.retuneElsewhere, found]

/-! ### The allow-gap restart (06 R118) -/

theorem retuneElsewhere_restart (failed : s.allocate f tol (some b.loop) = none) (search : findEntry s.plan s.station.rate f tol = some (i, d))
    (single : (s.list b.loop).length = 1) : s.retuneElsewhere h g b f tol true = s.retuneRestart h b i d f tol := by
  rw [State.retuneElsewhere, failed, search]
  exact if_pos ⟨rfl, single⟩

/-- The loops once loop K has taken an entry anew. -/
def State.loopsRestarted (s : State) (k : LoopIx) (i : EntryIx) : Vector LoopRec 6 :=
  wr s.loops.loops k (LoopRec.started s.loops.acquireLimit s.station.station i (planMode s.plan i))

theorem retuneRestart_eq (live : s.grantAt h.port = some g) (settled : g.retune = none) :
    let loops := s.loopsRestarted b.loop i
    let moved : Grant := { g with f := f, tol := tol, state := .pending, mark := true, binding := some { loop := b.loop, entry := i, d := d } }
    s.retuneRestart h b i d f tol =
      ({ s with
          engine := s.redivided h moved b.loop d,
          loops := { s.loops with loops := loops },
          switch := (s.switch.advanceAll loops s.station.station).request loops s.station.station h.port g.pendingSource },
       retuneAnswer h .pending .restart false (some { loop := b.loop, entry := i, d := d })) := by
  intro loops moved
  have recorded : ((((s.restartLoop b.loop i).setBindingDivider b.loop h d).updGrant h.port (fun g => { g with
      binding := some { loop := b.loop, entry := i, d := d }, f := f, tol := tol, state := .pending, mark := true }))).grantAt h.port =
      some moved := by
    rw [grantAt_updGrant, if_pos rfl]
    exact congrArg (Option.map _) live
  have unusable : (rd loops b.loop).usable = false := by
    rw [show rd loops b.loop = _ from rd_wr_same _ _ _]
    exact started_notUsable _ _ _ _
  have target {u : State} (restarted : u.loops.loops = loops) : u.portTarget moved = g.pendingSource := by
    rw [portTarget_settled (g := moved) settled, tableTarget_pending (g := moved) rfl rfl, State.loop, restarted]
    exact if_neg (by simp [unusable])
  unfold State.retuneRestart
  dsimp only
  rw [requestByState_live recorded, target rfl, updGrant_live (s := (s.restartLoop b.loop i).setBindingDivider b.loop h d) live]
  rfl

end Elsewhere

/-- Settles O31: the NEW_LOOP retune by the state of the loop found, and the restart where none is found. -/
theorem retuneElsewhere : Obligations.RetuneElsewhere := by
  unfold Obligations.RetuneElsewhere
  intro s slot tag h g f tol gap b ready released own inside resolved settled ungrouped binding unmatched p asked
  obtain ⟨live, gen⟩ := resolve_some resolved
  have answered {t a} (elsewhere : s.retuneElsewhere h g b f tol gap = (t, a)) : exec asked s = .next (t.answer slot tag a) := by
    refine exec_slotRow_served (r := .retune { handle := some h, f := f, tol := tol, allowGap := gap }) tag ready ?_
    refine (serveRetune_live released own inside resolved settled).trans ?_
    rw [binding]
    exact (retuneBound_unmatched unmatched).trans ((if_neg (by simp [ungrouped])).trans elsewhere)
  refine ⟨fun t found => ?newLoop, fun i d failed gapAllowed single matched lowest => ?restart⟩
  case newLoop =>
    intro locked retuned started
    have served := answered ((retuneElsewhere_found found).trans (retuneNewLoop_eq live (allocate_unfailed found)))
    by_cases isLocked : (s.loop t.loop).state = .locked
    · have notIdle : (s.loop t.loop).state ≠ .idle := by
        rw [isLocked]
        decide
      rw [served]
      simp only [retuned, locked, if_pos isLocked, if_neg notIdle, State.requestSwitch, State.newLoopRetuned, loopsStarting_running notIdle]
      rfl
    · rw [served]
      simp only [retuned, locked, if_neg isLocked]
      rfl
  case restart =>
    intro restarted loops list moved
    subst gapAllowed
    rw [answered ((retuneElsewhere_restart failed (findEntry_eq_some.mpr ⟨matched, lowest⟩) single).trans (retuneRestart_eq live settled))]
    rfl

end Sys2Proof.Machine

/-! Retirement (01 R18 to R22): how it is asked for, and all that it does. -/

namespace Sys2Proof.Machine

/-! ### How a retirement is asked for (01 R20, 06 R124, 10 R179) -/

section Requested

variable {s : State} {slot : SlotIx} {h : Handle} {o : Option Handle}

theorem serveRelease_held (hold : s.maint.hold = true) : s.serveRelease slot o = (s, Answer.bare .held) := by
  simp [State.serveRelease, hold]

theorem serveRelease_notOwn (released : s.maint.hold = false) (notOwn : ownHandle slot o = none) :
    s.serveRelease slot o = (s, Answer.bare .badRequest) := by
  simp [State.serveRelease, released, notOwn]

theorem serveRelease_stale (released : s.maint.hold = false) (own : h.port.val / 2 = slot.val) (stale : s.resolve h = none) :
    s.serveRelease slot (some h) = (s, Answer.bare .stale) := by
  simp [State.serveRelease, released, ownHandle_own own, stale]

theorem serveRelease_live (released : s.maint.hold = false) (own : h.port.val / 2 = slot.val) (live : (s.resolve h).isSome = true) :
    s.serveRelease slot (some h) = (s.retire h.port .release, Answer.ok []) := by
  obtain ⟨g, resolved⟩ := Option.isSome_iff_exists.mp live
  simp [State.serveRelease, released, ownHandle_own own, resolved]

theorem takeForceRetire_stale (stale : s.resolve h = none) : s.takeForceRetire (some h) = (s, Response.bare .stale) := by
  simp [State.takeForceRetire, stale]

theorem takeForceRetire_live (live : (s.resolve h).isSome = true) :
    s.takeForceRetire (some h) = (s.retire h.port .forced, Response.ok []) := by
  obtain ⟨g, resolved⟩ := Option.isSome_iff_exists.mp live
  simp [State.takeForceRetire, resolved]

end Requested

/-- Settles O21: RELEASE by its checks, FORCE_RETIRE by its handle, and the expiry of a lease where it is out. -/
theorem retirementRequested : Obligations.RetirementRequested := by
  unfold Obligations.RetirementRequested
  refine ⟨fun s slot tag h ready => ?release, fun s h running => ?forced, fun s p g l running live leased => ?lease⟩
  case release =>
    have refused {o st} (served : s.serveRelease slot o = (s, Answer.bare st)) :
        exec (.release slot tag o) s = .next (s.answer slot tag { status := st, payload := [] }) :=
      exec_slotRow_refused (r := .release o) tag ready served
    exact ⟨fun hold o => refused (serveRelease_held hold), fun released => ⟨refused (serveRelease_notOwn released rfl),
      fun foreign => refused (serveRelease_notOwn released (ownHandle_foreign foreign)), fun own =>
        ⟨fun stale => refused (serveRelease_stale released own stale),
          fun live => exec_slotRow_served (r := .release (some h)) tag ready (serveRelease_live released own live)⟩⟩⟩
  case forced =>
    exact ⟨exec_command_running running rfl rfl, fun stale => exec_command_running running rfl (takeForceRetire_stale stale),
      fun live => ⟨_, rfl, exec_command_running running rfl (takeForceRetire_live live)⟩⟩
  case lease =>
    refine ⟨fun released zero => ?out, fun kept => ?runs⟩
    case out =>
      have out : s.leaseOut p = true := leaseOut_iff.mpr ⟨running, released, g, l, live, leased, zero⟩
      exact congrArg Host.Outcome.next (if_pos out)
    case runs =>
      have runs : ¬ s.leaseOut p = true := by
        rw [leaseOut_iff]
        rintro ⟨-, released, g', l', live', leased', zero⟩
        obtain rfl := Option.some.inj (live.symm.trans live')
        obtain rfl := Option.some.inj (leased.symm.trans leased')
        rcases kept with hold | left
        · rw [hold] at released
          cases released
        · exact left zero
      exact congrArg Host.Outcome.next (if_neg runs)

/-! ### The bindings of a grant removed (01 R21 step 2) -/

/-- The loops on which a grant holds a binding: that of its own, and that of a NEW_LOOP retune in flight. -/
def Grant.boundLoops (g : Grant) : List LoopIx :=
  (match g.binding with
   | some b => [b.loop]
   | none => []) ++
  (match g.retune with
   | some (.newLoop b _ _ _) => [b.loop]
   | _ => [])

theorem mem_boundLoops {g : Grant} {k : LoopIx} : k ∈ g.boundLoops ↔
    (∃ b, g.binding = some b ∧ b.loop = k) ∨ ∃ b f tol cut, g.retune = some (.newLoop b f tol cut) ∧ b.loop = k := by
  rw [Grant.boundLoops, List.mem_append]
  refine or_congr ?_ ?_
  · cases g.binding <;> simp [eq_comm]
  · rcases g.retune with _ | (_ | _) <;> simp [eq_comm]

/-- The bindings of a grant removed from the lists of several loops, in order. -/
def State.unbindAll (s : State) (ks : List LoopIx) (h : Handle) : State := ks.foldl (fun s k => s.unbind k h) s

/-- H's binding stands in a list and no other does, so that its removal empties the list (01 R6). -/
abbrev emptiedBy (l : List Binding) (h : Handle) : Prop := l.any (fun b => b.handle == h) = true ∧ l.filter (fun b => b.handle != h) = []

/-- The loop records and the ports once loop K is stopped, when the removal of H's binding empties its list. -/
def stopEmptied (lists : LoopIx → List Binding) (station : Option Ref) (h : Handle) (x : Vector LoopRec 6 × SwitchUnit) (k : LoopIx) :
    Vector LoopRec 6 × SwitchUnit :=
  if emptiedBy (lists k) h then (wr x.1 k LoopRec.idle, x.2.loopIdle (wr x.1 k LoopRec.idle) station k) else x

section Unbind

variable {s : State} {h : Handle} {k : LoopIx}

theorem unbind_eq : s.unbind k h = if emptiedBy (s.list k) h then (s.removeBinding k h).stopLoop k else s.removeBinding k h := by
  rw [State.unbind, list_removeBinding, if_pos rfl]
  exact if_congr (and_congr_right fun _ => List.isEmpty_iff) rfl rfl

theorem unbind_list (j : LoopIx) : (s.unbind k h).list j = if j = k then (s.list k).filter (fun b => b.handle != h) else s.list j :=
  (unbind_effect s k h).1 j

theorem unbind_stops : ((s.unbind k h).loops.loops, (s.unbind k h).switch) =
    stopEmptied s.list s.station.station h (s.loops.loops, s.switch) k := by
  rw [unbind_eq, stopEmptied]
  by_cases empty : emptiedBy (s.list k) h
  · rw [if_pos empty, if_pos empty]
    rfl
  · rw [if_neg empty, if_neg empty]
    rfl

theorem unbind_unbind : (s.unbind k h).unbind k h = s.unbind k h := by
  have absent : (s.unbind k h).list k = (s.list k).filter (fun b => b.handle != h) := (unbind_list k).trans (if_pos rfl)
  have stays : ¬ emptiedBy ((s.unbind k h).list k) h := by
    rw [absent]
    rintro ⟨present, -⟩
    simp at present
  have same : ((s.unbind k h).list k).filter (fun b => b.handle != h) = (s.unbind k h).list k := by
    rw [absent, List.filter_filter]
    simp only [Bool.and_self]
  rw [unbind_eq, if_neg stays, State.removeBinding, same, State.setList, State.list, wr_rd]

theorem unbindAll_cons (k : LoopIx) (ks : List LoopIx) : s.unbindAll (k :: ks) h = (s.unbind k h).unbindAll ks h := rfl

theorem unbindAll_boundLoops (g : Grant) : s.unbindAll g.boundLoops.dedup h = s.unbindAll g.boundLoops h := by
  rw [Grant.boundLoops]
  rcases g.binding with _ | b <;> rcases g.retune with _ | (_ | ⟨t, f, tol, cut⟩)
  case some.some.newLoop =>
    by_cases same : b.loop = t.loop
    · simp [same, unbindAll_cons, unbind_unbind]
    · simp [same]
  all_goals simp

theorem unbindAll_frame (ks : List LoopIx) : s.unbindAll ks h =
    { s with engine := { s.engine with lists := (s.unbindAll ks h).engine.lists }, loops := { s.loops with loops := (s.unbindAll ks h).loops.loops },
             switch := (s.unbindAll ks h).switch } := by
  induction ks generalizing s with
  | nil => rfl
  | cons k ks ih => rw [unbindAll_cons, ih, unbind_shape]

theorem unbindAll_list (ks : List LoopIx) (j : LoopIx) :
    (s.unbindAll ks h).list j = if j ∈ ks then (s.list j).filter (fun b => b.handle != h) else s.list j := by
  induction ks generalizing s with
  | nil => rfl
  | cons k ks ih =>
    rw [unbindAll_cons, ih, unbind_list]
    by_cases here : j = k
    · subst here
      simp [List.filter_filter]
    · simp [here]

theorem unbindAll_loop {ks : List LoopIx} (once : ks.Nodup) (j : LoopIx) :
    (s.unbindAll ks h).loop j = if j ∈ ks ∧ emptiedBy (s.list j) h then LoopRec.idle else s.loop j := by
  induction ks generalizing s with
  | nil => simp [State.unbindAll]
  | cons k ks ih =>
    obtain ⟨fresh, once⟩ := List.nodup_cons.mp once
    rw [unbindAll_cons, ih once, unbind_list, (unbind_effect s k h).2.1 j]
    by_cases here : j = k
    · subst here
      simp only [fresh, false_and, if_false, List.mem_cons, true_or, true_and]
    · simp [here]

theorem unbindAll_stops {ks : List LoopIx} (once : ks.Nodup) {lists : LoopIx → List Binding} (same : ∀ k ∈ ks, s.list k = lists k) :
    ((s.unbindAll ks h).loops.loops, (s.unbindAll ks h).switch) = ks.foldl (stopEmptied lists s.station.station h) (s.loops.loops, s.switch) := by
  induction ks generalizing s with
  | nil => rfl
  | cons k ks ih =>
    obtain ⟨fresh, once⟩ := List.nodup_cons.mp once
    have later : ∀ j ∈ ks, (s.unbind k h).list j = lists j := fun j listed => by
      have apart : j ≠ k := fun here => fresh (here ▸ listed)
      rw [unbind_list, if_neg apart, same j (List.mem_cons_of_mem _ listed)]
    have station : (s.unbind k h).station = s.station := by rw [unbind_shape]
    have stopped : stopEmptied s.list s.station.station h (s.loops.loops, s.switch) k =
        stopEmptied lists s.station.station h (s.loops.loops, s.switch) k := by
      rw [stopEmptied, same k List.mem_cons_self] <;> rfl
    rw [unbindAll_cons, ih once later, unbind_stops, station, stopped]
    rfl

theorem unbindAll_noDivider (ks : List LoopIx) {gi : GroupIx} (none' : rd s.switch.dividers gi = none) :
    rd (s.unbindAll ks h).switch.dividers gi = none := by
  induction ks generalizing s with
  | nil => exact none'
  | cons k ks ih =>
    refine ih ?_
    have switch : (s.unbind k h).switch = (stopEmptied s.list s.station.station h (s.loops.loops, s.switch) k).2 := congrArg Prod.snd unbind_stops
    rw [switch, stopEmptied]
    split
    · rw [loopIdle_dividers, none']
      rfl
    · exact none'

end Unbind

/-! ### The group left (01 R18, R19) -/

/-- The group that a grant's leaving dissolves, if any. -/
def State.dissolved (s : State) (g : Grant) (h : Handle) : Option GroupIx :=
  g.group.bind (fun gi => (rd s.engine.groups gi).bind (fun gr => if (gr.members.filter (fun m => m != h)).length ≤ 1 then some gi else none))

section Leave

variable {s : State} {p : PortIx} {g : Grant}

theorem leaveGroup_switch (live : s.grantAt p = some g) : (s.leaveGroup p).switch =
    match s.dissolved g (g.handle p) with
    | some gi => s.switch.releaseDivider s.loops.loops s.station.station gi
    | none => s.switch := by
  rw [State.leaveGroup, live, State.dissolved]
  dsimp only
  cases g.group with
  | none => rfl
  | some gi =>
    dsimp only [Option.bind_some]
    cases record : rd s.engine.groups gi with
    | none => rfl
    | some gr =>
      dsimp only [Option.bind_some]
      by_cases few : (gr.members.filter (fun m => m != g.handle p)).length ≤ 1
      · rw [if_pos few, if_pos few]
        let u := (s.updGrant p (fun g => { g with group := none })).setGroup gi (some { gr with members := gr.members.filter (fun m => m != g.handle p) })
        have kept : rd u.engine.groups gi = some { gr with members := gr.members.filter (fun m => m != g.handle p) } := rd_wr_same _ _ _
        rw [(dissolveGroup_effect u gi _ kept).2]
        rfl
      · rw [if_neg few, if_neg few]
        rfl

/-- A retirement: the group left, the bindings removed, the port switched to OFF, the record removed, the notice effects (01 R21, R22). -/
theorem retire_eq (live : s.grantAt p = some g) (why : RetireWhy) :
    let v := (s.leaveGroup p).unbindAll g.boundLoops.dedup (g.handle p)
    s.retire p why = { (v.requestSwitch p .none).setGrant p none with notices := v.notices.retirement p why g.gen } := by
  intro v
  have bound : v = (s.leaveGroup p).unbindAll g.boundLoops (g.handle p) := unbindAll_boundLoops g
  rw [bound, Grant.boundLoops, State.retire, live]
  dsimp only
  rcases g.binding with _ | b <;> rcases g.retune with _ | (_ | _) <;>
    simp only [State.unbindAll, List.nil_append, List.append_nil, List.cons_append, List.foldl_cons, List.foldl_nil, State.setGrant_notices,
      State.requestSwitch_notices]

/-! ### What a retirement leaves, unit by unit -/

theorem leaveGroup_list (k : LoopIx) : (s.leaveGroup p).list k = s.list k := by
  rw [leaveGroup_shape]
  rfl

theorem leaveGroup_loop (k : LoopIx) : (s.leaveGroup p).loop k = s.loop k := by
  rw [leaveGroup_shape]
  rfl

theorem leaveGroup_loops : (s.leaveGroup p).loops = s.loops := by rw [leaveGroup_shape]

theorem leaveGroup_station : (s.leaveGroup p).station = s.station := by rw [leaveGroup_shape]

theorem retire_groups (live : s.grantAt p = some g) (why : RetireWhy) : (s.retire p why).engine.groups = (s.leaveGroup p).engine.groups := by
  rw [retire_eq live, unbindAll_frame]
  rfl

theorem retire_grantAt_other {q : PortIx} (live : s.grantAt p = some g) (why : RetireWhy) (other : q ≠ p) :
    (s.retire p why).grantAt q = (s.leaveGroup p).grantAt q := by
  rw [retire_eq live, unbindAll_frame]
  exact rd_wr_ne _ _ _ _ other

theorem retire_list (live : s.grantAt p = some g) (why : RetireWhy) (k : LoopIx) : (s.retire p why).list k =
    if k ∈ g.boundLoops then (s.list k).filter (fun b => b.handle != g.handle p) else s.list k := by
  have emptied := unbindAll_list (s := s.leaveGroup p) (h := g.handle p) g.boundLoops.dedup k
  rw [leaveGroup_list] at emptied
  rw [retire_eq live]
  exact emptied.trans (if_congr List.mem_dedup rfl rfl)

theorem retire_loop (live : s.grantAt p = some g) (why : RetireWhy) (k : LoopIx) : (s.retire p why).loop k =
    if k ∈ g.boundLoops ∧ emptiedBy (s.list k) (g.handle p) then LoopRec.idle else s.loop k := by
  have stopped := unbindAll_loop (s := s.leaveGroup p) (h := g.handle p) (List.nodup_dedup g.boundLoops) k
  rw [leaveGroup_list, leaveGroup_loop] at stopped
  rw [retire_eq live]
  exact stopped.trans (if_congr (and_congr_left fun _ => List.mem_dedup) rfl rfl)

theorem retire_switch (live : s.grantAt p = some g) (why : RetireWhy) :
    let freed : SwitchUnit := match s.dissolved g (g.handle p) with
      | some gi => s.switch.releaseDivider s.loops.loops s.station.station gi
      | none => s.switch
    let stopped := g.boundLoops.dedup.foldl (stopEmptied s.list s.station.station (g.handle p)) (s.loops.loops, freed)
    (s.retire p why).loops.loops = stopped.1 ∧ (s.retire p why).switch = stopped.2.request stopped.1 s.station.station p .none := by
  intro freed stopped
  let v := (s.leaveGroup p).unbindAll g.boundLoops.dedup (g.handle p)
  have stops : (v.loops.loops, v.switch) = stopped := by
    rw [unbindAll_stops (s := s.leaveGroup p) (List.nodup_dedup g.boundLoops) (lists := s.list) (fun k _ => leaveGroup_list k),
      leaveGroup_station, leaveGroup_loops, leaveGroup_switch live]
  have station : v.station = s.station := by
    rw [show v = _ from unbindAll_frame _]
    exact leaveGroup_station
  rw [retire_eq live, ← stops, ← station]
  exact ⟨rfl, rfl⟩

theorem retire_noDivider {gi : GroupIx} (live : s.grantAt p = some g) (why : RetireWhy) (released : rd (s.leaveGroup p).switch.dividers gi = none) :
    rd (s.retire p why).switch.dividers gi = none := by
  rw [retire_eq live]
  exact (congrArg (rd · gi) (request_port _ _ _ p p .none).2.2).trans (unbindAll_noDivider _ released)

theorem retire_off (live : s.grantAt p = some g) (why : RetireWhy) :
    let r := rd (s.retire p why).switch.ports p
    (r.switching = none ∧ r.current = .none) ∨ ∃ sw, r.switching = some sw ∧ sw.target = .none := by
  rw [(retire_switch live why).2, (request_port _ _ _ p p .none).1]
  exact request_off _ _ _ _

theorem retire_notices (live : s.grantAt p = some g) (why : RetireWhy) : (s.retire p why).notices = s.notices.retirement p why g.gen := by
  rw [retire_shape, live]

end Leave

/-! ### The notice effects (01 R22, 08 R144) -/

section Notices

variable {u : NoticeUnit} {p : PortIx} {why : RetireWhy} {gen : Mod16}

theorem portKind_index_inj {k j : PortKind} : k.index = j.index ↔ k = j := by cases k <;> cases j <;> decide

theorem retirement_kind (k : PortKind) : rd (rd (u.retirement p why gen).ports p).kinds k.index =
    if k = .retired ∧ why.raised.isSome = true then { pending := true, seq := (rd (rd u.ports p).kinds k.index).seq + 1 }
    else { pending := false, seq := (rd (rd u.ports p).kinds k.index).seq } := by
  have cleared : rd (rd (u.clearPort p).ports p).kinds k.index = { pending := false, seq := (rd (rd u.ports p).kinds k.index).seq } := by
    rw [NoticeUnit.clearPort, upd_eq, rd_wr_same, rd_mapCells]
    rfl
  unfold NoticeUnit.retirement
  cases why.raised with
  | none => exact cleared.trans (if_neg (by simp)).symm
  | some reason =>
    simp only [NoticeUnit.raiseRetired, NoticeUnit.raise, upd_eq, rd_wr_same, Option.isSome_some, and_true, rd_wr, portKind_index_inj]
    by_cases retired : k = .retired
    · subst retired
      rw [if_pos rfl, if_pos rfl, cleared]
      rfl
    · rw [if_neg retired, if_neg retired, cleared]

theorem retirement_reason : (rd (u.retirement p why gen).ports p).retired = match why.raised with
    | some r => some { reason := r, gen := gen }
    | none => (rd u.ports p).retired := by
  unfold NoticeUnit.retirement
  cases why.raised with
  | none => simp [NoticeUnit.clearPort, upd_eq]
  | some r => simp [NoticeUnit.raiseRetired, upd_eq]

theorem retirement_other {q : PortIx} (other : q ≠ p) : rd (u.retirement p why gen).ports q = rd u.ports q := by
  unfold NoticeUnit.retirement
  cases why.raised <;> simp [NoticeUnit.clearPort, NoticeUnit.raiseRetired, NoticeUnit.raise, upd_eq, other]

theorem retirement_slots : (u.retirement p why gen).slots = u.slots := by
  unfold NoticeUnit.retirement
  cases why.raised <;> rfl

end Notices

/-- Settles O22: unit by unit, what the five actions of a retirement leave. -/
theorem retirementEffect : Obligations.RetirementEffect := by
  unfold Obligations.RetirementEffect
  intro s p why g live t h held reason
  obtain ⟨ungrouped, grouped⟩ := leaveGroup_effect s p g live
  have held_iff (k : LoopIx) : k ∈ g.boundLoops ↔ held k := mem_boundLoops
  have raised : reason = why.raised := by cases why <;> rfl
  have emptied (k : LoopIx) : (held k ∧ (s.list k).any (fun b => b.handle == h) = true ∧ t.list k = []) ↔
      k ∈ g.boundLoops ∧ emptiedBy (s.list k) h := by
    rw [held_iff]
    refine and_congr_right fun bound => and_congr_right fun _ => ?_
    rw [show t.list k = _ from retire_list live why k, if_pos ((held_iff k).mpr bound)]
    rfl
  refine ⟨retire_gone s p p why (.inl rfl), by rw [show t = _ from retire_shape s p why], fun none' => ?ungrouped, fun gi gr some' record => ?grouped,
    fun k => ?lists, fun k => ?loops, retire_off live why, ?switch, fun k => ?kinds, ?reason, fun q other => ?others, ?slots, ?frame⟩
  case ungrouped =>
    have same := ungrouped none'
    refine ⟨(retire_groups live why).trans (by rw [same]), fun q other => (retire_grantAt_other live why other).trans (by rw [same])⟩
  case grouped =>
    obtain ⟨stays, dissolves⟩ := grouped gi gr some' record
    refine ⟨fun two => ?stays, fun few => ?dissolves⟩
    case stays =>
      obtain ⟨groups, others⟩ := stays two
      exact ⟨(retire_groups live why).trans groups, fun q other => (retire_grantAt_other live why other).trans (others q other)⟩
    case dissolves =>
      obtain ⟨groups, divider, others⟩ := dissolves few
      exact ⟨(retire_groups live why).trans groups, retire_noDivider live why divider,
        fun q other => (retire_grantAt_other live why other).trans (others q other)⟩
  case lists =>
    exact ⟨fun bound => (retire_list live why k).trans (if_pos ((held_iff k).mpr bound)),
      fun free => (retire_list live why k).trans (if_neg (mt (held_iff k).mp free))⟩
  case loops =>
    exact ⟨fun stops => (retire_loop live why k).trans (if_pos ((emptied k).mp stops)),
      fun runs => (retire_loop live why k).trans (if_neg (mt (emptied k).mpr runs))⟩
  case switch => exact retire_switch live why
  case kinds => rw [show t.notices = _ from retire_notices live why, raised, retirement_kind]
  case reason =>
    rw [show t.notices = _ from retire_notices live why, raised]
    exact retirement_reason
  case others => rw [show t.notices = _ from retire_notices live why, retirement_other other]
  case slots => rw [show t.notices = _ from retire_notices live why, retirement_slots]
  case frame =>
    rw [show t = _ from retire_shape s p why]
    exact ⟨rfl, rfl, rfl, rfl, rfl, rfl, rfl, rfl, rfl, rfl⟩

end Sys2Proof.Machine

/-! The ports (04 R72 to R78): the lines, what a switching port does at once, the switch request, and the low phases that begin a stasis and
complete a switch. -/

namespace Sys2Proof.Machine

/-! ### Lines (04 R72 to R74) -/

theorem dividerLow_one (half : Nat) : dividerLow 1 half = true ↔ half % 2 = 1 := by
  rw [dividerLow, decide_eq_true_eq, lowPhaseStart, if_pos rfl]
  omega

/-- A divider of 1 passes its input through, so that whole periods change no level. -/
theorem dividerLow_one_add (half m : Nat) : dividerLow 1 (half + 2 * m) = dividerLow 1 half := by
  rw [← Nat.one_mul m]
  exact dividerLow_add 1 half m

/-- A count of n periods has 2n half-periods, of which the first 2⌈n/2⌉ are high. -/
theorem dividerLow_two_le {n : Nat} (big : 2 ≤ n) (half : Nat) : dividerLow n half = true ↔ (n + 1) / 2 ≤ half / 2 % n := by
  have position : half % (2 * n) = half % 2 + 2 * (half / 2 % n) := Nat.mod_mul
  rw [dividerLow, decide_eq_true_eq, lowPhaseStart, if_neg (by omega), position]
  omega

section Line

variable {loops : Vector LoopRec 6} {station : Option Ref} {r x : PortRec} {m : Nat}

/-- A port whose line carries the output of the divider of its current source (04 R73, R75). -/
def PortRec.Driven (loops : Vector LoopRec 6) (station : Option Ref) (r : PortRec) : Prop :=
  r.current ≠ .none ∧ silentSource loops station r.current = false ∧ ∀ sw, r.switching = some sw → sw.stasis = false

theorem inStasis_false_iff : r.inStasis = false ↔ ∀ sw, r.switching = some sw → sw.stasis = false := by
  cases state : r.switching <;> simp [PortRec.inStasis, state]

theorem driven_iff : r.Driven loops station ↔ (r.current == .none || r.inStasis || silentSource loops station r.current) = false := by
  rw [Bool.or_eq_false_iff, Bool.or_eq_false_iff, beq_eq_false_iff_ne, inStasis_false_iff, PortRec.Driven]
  tauto

theorem lineLow_undriven (undriven : ¬ r.Driven loops station) : r.lineLow loops station m = true := by
  rw [driven_iff, Bool.not_eq_false] at undriven
  rw [PortRec.lineLow, undriven, Bool.true_or]

theorem lineLow_driven (driven : r.Driven loops station) : r.lineLow loops station m = dividerLow r.current.divider (r.position m) := by
  rw [PortRec.lineLow, driven_iff.mp driven, Bool.false_or]

theorem position_input {input : ClockInput} (on : r.current.input = some input) :
    r.position m = Config.halfPeriods m input + 2 * r.origin.lead input := by simp only [PortRec.position, on]

/-- Lines of one divider and one origin are at one level, and so are those of a divider of 1 on one input (log 6). -/
theorem dividerLow_position (input : x.current.input = r.current.input) (divider : x.current.divider = r.current.divider)
    (level : x.origin = r.origin ∨ r.current.divider = 1) :
    dividerLow x.current.divider (x.position m) = dividerLow r.current.divider (r.position m) := by
  rw [divider, PortRec.position, PortRec.position, input]
  cases r.current.input with
  | none => rfl
  | some i =>
    rcases level with same | one
    · rw [same]
    · rw [one]
      exact (dividerLow_one_add _ _).trans (dividerLow_one_add _ _).symm

end Line

/-! ### What a port does at once (04 R75 to R77) -/

section Advance

variable {loops : Vector LoopRec 6} {station : Option Ref} {r : PortRec} {sw : Switching} {x : Source}

theorem advance_still (still : r.switching = none) : r.advance loops station = (r, []) := by rw [PortRec.advance, still]

/-- The line of a switching port is low whatever its divider does: in stasis, OFF, or silent. -/
def PortRec.AtLow (loops : Vector LoopRec 6) (station : Option Ref) (r : PortRec) (sw : Switching) : Prop :=
  sw.stasis = true ∨ r.current = .none ∨ silentSource loops station r.current = true

/-- A target that a port in stasis takes at once: NONE, or an unaligned source without edges (04 R76). -/
def Switching.Quiet (loops : Vector LoopRec 6) (station : Option Ref) (sw : Switching) : Prop :=
  sw.target = .none ∨ (sw.target.group = none ∧ silentSource loops station sw.target = true)

theorem atLow_iff : (sw.stasis || r.current == .none || silentSource loops station r.current) = true ↔ r.AtLow loops station sw := by
  rw [Bool.or_eq_true, Bool.or_eq_true, beq_iff_eq, or_assoc, PortRec.AtLow]

theorem quiet_iff : (sw.target == .none || (sw.target.group.isNone && silentSource loops station sw.target)) = true ↔
    sw.Quiet loops station := by
  rw [Bool.or_eq_true, Bool.and_eq_true, beq_iff_eq, Option.isNone_iff_eq_none, Switching.Quiet]

theorem advance_high (switching : r.switching = some sw) (high : ¬ r.AtLow loops station sw) : r.advance loops station = (r, []) := by
  simp only [PortRec.advance, switching]
  rw [if_neg (mt atLow_iff.mp high)]

theorem advance_lost (switching : r.switching = some sw) (low : r.AtLow loops station sw) (lost : sw.lost = true) :
    r.advance loops station = (PortRec.off, [.void sw.target]) := by
  simp only [PortRec.advance, switching]
  rw [if_pos (atLow_iff.mpr low), if_pos lost]
  rfl

theorem advance_quiet (switching : r.switching = some sw) (low : r.AtLow loops station sw) (kept : sw.lost = false) (quiet : sw.Quiet loops station) :
    r.advance loops station = ({ current := sw.target, switching := none, count := 0, origin := .unbegun }, [.completion sw.target]) := by
  simp only [PortRec.advance, switching]
  rw [if_pos (atLow_iff.mpr low), if_neg (by simp [kept]), if_pos (quiet_iff.mpr quiet)]
  rfl

theorem advance_awaits (switching : r.switching = some sw) (low : r.AtLow loops station sw) (kept : sw.lost = false)
    (edges : ¬ sw.Quiet loops station) : r.advance loops station = ({ r with switching := some { sw with stasis := true } }, []) := by
  simp only [PortRec.advance, switching]
  rw [if_pos (atLow_iff.mpr low), if_neg (by simp [kept]), if_neg (mt quiet_iff.mp edges)]

/-! ### The switch request (04 R75, R78) -/

theorem atPort_nothing {u : SwitchUnit} {p : PortIx} {f : PortRec → PortStep} (nothing : f (rd u.ports p) = (rd u.ports p, [])) : u.atPort p f = u := by
  rw [SwitchUnit.atPort, nothing, upd_eq, List.append_nil, wr_rd, wr_rd]

theorem request_eq (u : SwitchUnit) (p : PortIx) (x : Source) : ∃ n, u.request loops station p x =
    { u.atPort p (PortRec.request loops station (u.lineLow loops station p) x) with draws := n } := by
  unfold SwitchUnit.request
  dsimp only
  split
  · exact ⟨_, rfl⟩
  · exact ⟨_, rfl⟩

/-- The request of the source a port has, or is switching to, changes nothing. -/
theorem request_nothing {u : SwitchUnit} {p : PortIx} (closed : (rd u.ports p).phaseOpen loops station x = false)
    (nothing : (rd u.ports p).request loops station (u.lineLow loops station p) x = (rd u.ports p, [])) : u.request loops station p x = u := by
  unfold SwitchUnit.request
  dsimp only
  rw [closed, atPort_nothing nothing]
  rfl

theorem request_current (still : r.switching = none) (same : x = r.current) (low : Bool) : r.request loops station low x = (r, []) := by
  simp only [PortRec.request, still]
  exact if_pos same

theorem request_other (still : r.switching = none) (other : x ≠ r.current) (low : Bool) : r.request loops station low x =
    PortRec.advance loops station { r with switching := some { target := x, stasis := low, lost := targetIdle loops x } } := by
  simp only [PortRec.request, still]
  exact if_neg other

theorem request_target (switching : r.switching = some sw) (same : x = sw.target) (low : Bool) : r.request loops station low x = (r, []) := by
  simp only [PortRec.request, switching]
  exact if_pos same

/-- Before stasis a port may be asked back to its current source: the switch is given up (04 R78). -/
theorem request_back (switching : r.switching = some sw) (other : x ≠ sw.target) (running : sw.stasis = false) (back : x = r.current) (low : Bool) :
    r.request loops station low x = ({ r with switching := none }, [.completion x]) := by
  simp only [PortRec.request, switching]
  rw [if_neg other]
  exact if_pos ⟨running, back⟩

theorem request_retarget (switching : r.switching = some sw) (other : x ≠ sw.target) (onward : sw.stasis = true ∨ x ≠ r.current) (low : Bool) :
    r.request loops station low x =
      PortRec.advance loops station { r with switching := some { target := x, stasis := sw.stasis, lost := targetIdle loops x } } := by
  simp only [PortRec.request, switching]
  rw [if_neg other]
  refine if_neg ?_
  rintro ⟨running, back⟩
  rcases onward with stasis | away
  · rw [stasis] at running
    cases running
  · exact away back

end Advance

/-! ### The low phases (04 R75, R76) -/

section Phase

variable {s : State} {p : PortIx} {sw : Switching}

theorem stasisBegins_changes (running : s.restart.startUp = .running) (switching : (rd s.switch.ports p).switching = some sw)
    (before : sw.stasis = false) : exec (.stasisBegins p) s = .next (s.atPort p (PortRec.beginStasis s.loops.loops s.station.station)) :=
  congrArg Host.Outcome.next (if_pos ⟨isRunning_iff.mpr running, by simp [PortRec.awaitsLow, switching, before]⟩)

theorem stasisBegins_nothing (passed : ∀ sw, (rd s.switch.ports p).switching = some sw → sw.stasis = true) :
    exec (.stasisBegins p) s = .next s := by
  have settled : (rd s.switch.ports p).awaitsLow = false := by
    cases switching : (rd s.switch.ports p).switching with
    | none => simp [PortRec.awaitsLow, switching]
    | some sw => simp [PortRec.awaitsLow, switching, passed sw switching]
  exact congrArg Host.Outcome.next (if_neg (by simp [settled]))

theorem countsToward_eq_some {r : PortRec} {x : Source} : r.countsToward = some x ↔
    ∃ sw, r.switching = some sw ∧ sw.stasis = true ∧ sw.lost = false ∧ sw.target.group = none ∧ sw.target = x := by
  cases switching : r.switching <;> simp [PortRec.countsToward, switching, and_assoc]

theorem completes_counting (running : s.restart.startUp = .running) (switching : (rd s.switch.ports p).switching = some sw)
    (stasis : sw.stasis = true) (kept : sw.lost = false) (unaligned : sw.target.group = none) :
    exec (.portSwitchCompletes p) s = .next { s with switch := { s.switch with
      ports := wr s.switch.ports p
        { current := sw.target, switching := none, count := lowPhaseStart sw.target.divider, origin := .begun s.switch.starts },
      reports := wr s.switch.reports p (rd s.switch.reports p ++ [.completion sw.target]),
      starts := s.switch.starts + 1 } } := by
  have counts : (rd s.switch.ports p).countsToward = some sw.target := countsToward_eq_some.mpr ⟨sw, switching, stasis, kept, unaligned, rfl⟩
  refine (congrArg Host.Outcome.next (if_pos ⟨isRunning_iff.mpr running, by rw [counts]; rfl⟩)).trans ?_
  rw [SwitchUnit.lowPhase, SwitchUnit.atPort, PortRec.lowPhase, counts, upd_eq]
  rfl

theorem completes_nothing (open' : ∀ sw, (rd s.switch.ports p).switching = some sw → sw.stasis = false ∨ sw.lost = true ∨ sw.target.group ≠ none) :
    exec (.portSwitchCompletes p) s = .next s := by
  have counts : (rd s.switch.ports p).countsToward.isSome = false := by
    rw [Option.isSome_eq_false_iff, Option.isNone_iff_eq_none, Option.eq_none_iff_forall_not_mem]
    intro x counted
    obtain ⟨sw, switching, stasis, kept, unaligned, -⟩ := countsToward_eq_some.mp counted
    rcases open' sw switching with running | lost | aligned
    · simp [stasis] at running
    · simp [kept] at lost
    · exact aligned unaligned
  exact congrArg Host.Outcome.next (if_neg (by simp [counts]))

end Phase

/-- Settles O54: the lines, what a port does at once, the request, and the two low phases. -/
theorem portSwitches : Obligations.PortSwitches := by
  unfold Obligations.PortSwitches
  refine ⟨fun half => ⟨dividerLow_one half, fun n big => dividerLow_two_le big half⟩, ?lines, ?advance, ?sources, ?request, ?phases⟩
  case lines =>
    intro loops station u p driven r position
    refine ⟨lineLow_undriven, fun k d g runs current => ?loop, fun fd runs current => ?fallback, fun q => ?level⟩
    case loop => exact (lineLow_driven runs).trans (by rw [position_input (r := rd u.ports p) (input := .loop k) (by rw [current]; rfl), current]; rfl)
    case fallback =>
      exact (lineLow_driven runs).trans (by rw [position_input (r := rd u.ports p) (input := .station) (by rw [current]; rfl), current]; rfl)
    case level =>
      intro x runs runs' input divider level
      exact (lineLow_driven runs').trans ((dividerLow_position input divider level).trans (lineLow_driven runs).symm)
  case advance =>
    exact fun loops station r => ⟨advance_still, fun sw switching => ⟨advance_high switching, advance_lost switching, advance_quiet switching,
      advance_awaits switching⟩⟩
  case sources =>
    refine fun loops station => ⟨fun k d g => ⟨?silent, beq_iff_eq⟩, fun fd => ⟨Option.isNone_iff_eq_none, rfl⟩, rfl, rfl⟩
    case silent => simp only [silentSource, Bool.or_eq_true, beq_iff_eq]
  case request =>
    intro loops station u p x r asked becomes toward
    obtain ⟨n, eq⟩ := request_eq (loops := loops) (station := station) u p x
    have changes {y : PortRec × List Report} (step : r.request loops station (u.lineLow loops station p) x = y) : becomes y := by
      subst step
      change (u.request loops station p x).ports = _ ∧ (u.request loops station p x).reports = _
      rw [eq]
      exact ⟨rfl, upd_eq u.reports p (fun l => l ++ (PortRec.request loops station (u.lineLow loops station p) x r).2)⟩
    refine ⟨(request_port loops station u p p x).2.2, fun still same => request_nothing ?closed (request_current still same _),
      fun still other => changes (request_other still other _), ?sameMoment, ?starts, fun sw switching => ⟨fun same => request_nothing ?closed'
        (request_target switching same _), fun other running back => changes (request_back switching other running back _),
        fun other onward => changes (request_retarget switching other onward _)⟩⟩
    case closed => simp [PortRec.phaseOpen, same, r]
    case closed' => simp [PortRec.phaseOpen, show (rd u.ports p).switching = some sw from switching]
    case sameMoment =>
      rw [show asked = _ from eq]
      rfl
    case starts =>
      rw [show asked = _ from eq]
      rfl
  case phases =>
    intro s p running r put
    refine ⟨fun sw switching => ⟨fun before => ?begins, fun passed => stasisBegins_nothing fun sw' switching' => ?passed,
      fun stasis kept unaligned => completes_counting running switching stasis kept unaligned,
      fun open' => completes_nothing fun sw' switching' => ?open'⟩, fun still => ⟨stasisBegins_nothing fun sw switching => ?still,
      completes_nothing fun sw switching => ?still'⟩⟩
    case begins =>
      rw [stasisBegins_changes running switching before, State.atPort, SwitchUnit.atPort, PortRec.beginStasis, upd_eq,
        show (rd s.switch.ports p).switching = some sw from switching]
      rfl
    case passed =>
      obtain rfl := Option.some.inj (switching.symm.trans switching')
      exact passed
    case open' =>
      obtain rfl := Option.some.inj (switching.symm.trans switching')
      exact open'
    case still => cases still.symm.trans switching
    case still' => cases still.symm.trans switching

end Sys2Proof.Machine

/-! Group dividers (04 R80 to R84): the rollover at the divider and at every port, a value given, and a divider released. -/

namespace Sys2Proof.Machine

/-! ### The rollover (04 R80 to R82) -/

section Divider

variable {dv : GroupDivider} {s : State} {g : GroupIx} {n : Nat}

theorem producing_iff {l : LoopRec} : l.producing = true ↔ l.state ≠ .idle ∧ l.state ≠ .waiting := by
  unfold LoopRec.producing
  cases l.state <;> simp

theorem counts_iff {loops : Vector LoopRec 6} : dv.counts loops = true ↔
    dv.stopped = false ∧ (rd loops dv.loop).state ≠ .idle ∧ (rd loops dv.loop).state ≠ .waiting := by
  rw [GroupDivider.counts, Bool.and_eq_true, Bool.not_eq_true', producing_iff]

theorem next_kept (none' : dv.pendingValue = none) : dv.next = dv.value ∧ dv.nextOrigin n = dv.origin := by
  simp [GroupDivider.next, GroupDivider.nextOrigin, none']

theorem next_taken {w : Nat} (pending : dv.pendingValue = some w) : dv.next = w ∧ dv.nextOrigin n = .takeover dv.origin dv.value n := by
  simp [GroupDivider.next, GroupDivider.nextOrigin, pending]

/-- No rollover changes an edge of a divider that divides the value which was in force (04 R81, R82). -/
theorem nextOrigin_level {d half : Nat} {input : ClockInput} (divides : d ∣ dv.value) :
    dividerLow d (half + 2 * (dv.nextOrigin n).lead input) = dividerLow d (half + 2 * dv.origin.lead input) := by
  cases pending : dv.pendingValue with
  | none => rw [(next_kept pending).2]
  | some w => rw [(next_taken pending).2, dividerLow_takeover d half dv.value n dv.origin input divides]

theorem groupRollover_none (none' : rd s.switch.dividers g = none) : exec (.groupRollover g) s = .next s := by
  change execGroupRollover g s = _
  rw [execGroupRollover, none']

theorem groupRollover_some (record : rd s.switch.dividers g = some dv) : exec (.groupRollover g) s =
    .next (if s.isRunning ∧ dv.counts s.loops.loops then { s with switch := s.switch.rollover g dv } else s) := by
  change execGroupRollover g s = _
  rw [execGroupRollover, record]

end Divider

section RolloverPort

variable {r : PortRec} {sw : Switching} {g : GroupIx} {v : Nat} {o : CountOrigin}

/-- A port whose divider the group's divider restarts at a rollover. -/
def PortRec.RestartedBy (r : PortRec) (g : GroupIx) (v : Nat) : Prop := r.current.group = some g ∧ v % r.current.divider = 0

theorem rollover_completes (switching : r.switching = some sw) (stasis : sw.stasis = true) (kept : sw.lost = false)
    (aligned : sw.target.group = some g) (divides : v % sw.target.divider = 0) :
    PortRec.rollover g v o r = ({ current := sw.target, switching := none, count := 0, origin := o }, [.completion sw.target]) := by
  simp only [PortRec.rollover, switching, stasis, kept, aligned, divides]
  rfl

theorem rollover_restarts (running : ∀ sw, r.switching = some sw → sw.stasis = false) (restarted : r.RestartedBy g v) :
    PortRec.rollover g v o r = ({ r with count := 0, origin := o }, []) := by
  cases switching : r.switching with
  | none =>
    simp only [PortRec.rollover, switching]
    exact if_pos restarted
  | some sw =>
    simp only [PortRec.rollover, switching, running sw switching]
    exact if_pos restarted

theorem rollover_nothing
    (waits : ∀ sw, r.switching = some sw → sw.stasis = true → sw.lost = true ∨ sw.target.group ≠ some g ∨ v % sw.target.divider ≠ 0)
    (apart : (∃ sw, r.switching = some sw ∧ sw.stasis = true) ∨ ¬ r.RestartedBy g v) : PortRec.rollover g v o r = (r, []) := by
  cases switching : r.switching with
  | none =>
    have free : ¬ r.RestartedBy g v := apart.resolve_left (by simp [switching])
    simp only [PortRec.rollover, switching]
    exact if_neg free
  | some sw =>
    cases stasis : sw.stasis with
    | true =>
      have waits := waits sw switching stasis
      simp only [PortRec.rollover, switching, stasis, if_true]
      refine if_neg ?_
      rintro ⟨kept, aligned, divides⟩
      rcases waits with lost | foreign | other
      · rw [lost] at kept
        cases kept
      · exact foreign aligned
      · exact other divides
    | false =>
      have free : ¬ r.RestartedBy g v := apart.resolve_left (by simp [switching, stasis])
      simp only [PortRec.rollover, switching, stasis]
      exact if_neg free

end RolloverPort

/-! ### A value given, a divider released (04 R80, R82 to R84) -/

section Given

variable {loops : Vector LoopRec 6} {station : Option Ref} {u : SwitchUnit} {g : GroupIx} {k : LoopIx} {v : Nat} {dv : GroupDivider}

theorem giveDivider_none (none' : rd u.dividers g = none) : u.giveDivider loops station g k v = u.establish g k v := by
  rw [SwitchUnit.giveDivider, none']

theorem giveDivider_same (record : rd u.dividers g = some dv) (loop : dv.loop = k) (value : v = dv.value) (settled : dv.pendingValue = none) :
    u.giveDivider loops station g k v = u := by
  simp only [SwitchUnit.giveDivider, record]
  rw [if_pos loop, if_pos ⟨value, settled⟩]

theorem giveDivider_pending (record : rd u.dividers g = some dv) (loop : dv.loop = k) (other : v ≠ dv.value ∨ dv.pendingValue ≠ none) :
    u.giveDivider loops station g k v = { u with dividers := wr u.dividers g (some { dv with pendingValue := some v }) } := by
  simp only [SwitchUnit.giveDivider, record]
  rw [if_pos loop, if_neg (by tauto)]

theorem giveDivider_moved (record : rd u.dividers g = some dv) (elsewhere : dv.loop ≠ k) :
    u.giveDivider loops station g k v = (u.atAllPorts (PortRec.unalign loops station g)).establish g k v := by
  simp only [SwitchUnit.giveDivider, record]
  rw [if_neg elsewhere]

/-- What a source loses with its alignment to a group. -/
theorem unalign_eq_if (g : GroupIx) (x : Source) : x.unalign g = if x.group = some g then (match x with
    | .loop j d _ => .loop j d none
    | y => y) else x := by
  by_cases aligned : x.group = some g
  · rw [if_pos aligned]
    cases x with
    | loop j d o =>
      obtain rfl : o = some g := aligned
      exact if_pos rfl
    | none => cases aligned
    | fallback fd => cases aligned
  · rw [if_neg aligned]
    rcases Source.unalign_eq g x with same | ⟨k, d, rfl, -⟩
    · exact same
    · exact absurd rfl aligned

theorem giveDivider_moved_port (record : rd u.dividers g = some dv) (elsewhere : dv.loop ≠ k) (p : PortIx) :
    rd (u.giveDivider loops station g k v).ports p = ((rd u.ports p).unalign loops station g).1 ∧
    rd (u.giveDivider loops station g k v).reports p = rd u.reports p ++ ((rd u.ports p).unalign loops station g).2 := by
  rw [giveDivider_moved record elsewhere]
  exact atAllPorts_port u (PortRec.unalign loops station g) p

end Given

/-- Settles O55: the rollover at the divider and port by port, the values given, the divider released. -/
theorem groupDividers : Obligations.GroupDividers := by
  unfold Obligations.GroupDividers
  refine ⟨fun s g running => ⟨groupRollover_none, fun dv record => ?rollover⟩, fun loops station u g k v => ?given⟩
  case rollover =>
    intro produces
    have row := groupRollover_some record
    refine ⟨fun stands => ?stands, fun turns produces => ⟨dv.next, dv.nextOrigin s.switch.starts, s.switch.rollover g dv, ?turns,
      next_kept, fun w => next_taken, fun d half input => nextOrigin_level, ?dividers, rollover_draws _ _ _, rollover_sameMoment _ _ _,
      rollover_starts _ _ _, fun p => ?port⟩⟩
    case stands =>
      have stands' : ¬ (s.isRunning = true ∧ dv.counts s.loops.loops = true) := by
        rintro ⟨-, counts⟩
        obtain ⟨turns, producing⟩ := counts_iff.mp counts
        rcases stands with stopped | silent
        · rw [stopped] at turns
          cases turns
        · exact silent producing
      rw [row, if_neg stands']
    case turns => rw [row, if_pos ⟨isRunning_iff.mpr running, counts_iff.mpr ⟨turns, produces⟩⟩]
    case dividers => simp only [SwitchUnit.rollover]
    case port =>
      intro r driven
      obtain ⟨port, reports⟩ := rollover_port s.switch g dv p
      have becomes {y : PortRec} {l : List Report} (step : PortRec.rollover g dv.next (dv.nextOrigin s.switch.starts) r = (y, l)) :
          rd (s.switch.rollover g dv).ports p = y ∧ rd (s.switch.rollover g dv).reports p = rd s.switch.reports p ++ l :=
        ⟨port.trans (congrArg Prod.fst step), reports.trans (congrArg (fun y => rd s.switch.reports p ++ y.2) step)⟩
      have quiet {y : PortRec} (step : PortRec.rollover g dv.next (dv.nextOrigin s.switch.starts) r = (y, [])) :
          rd (s.switch.rollover g dv).ports p = y ∧ rd (s.switch.rollover g dv).reports p = rd s.switch.reports p := by
        simpa only [List.append_nil] using becomes step
      exact ⟨fun sw switching stasis kept aligned divides => becomes (rollover_completes switching stasis kept aligned divides),
        fun running restarted => quiet (rollover_restarts running restarted), fun waits apart => quiet (rollover_nothing waits apart)⟩
  case given =>
    intro given fresh loses loosed
    have loses_eq (x : Source) : loses x = x.unalign g := (unalign_eq_if g x).symm
    have loosed_iff (w : SwitchUnit) : loosed w ↔ ∀ p, rd w.ports p = ((rd u.ports p).unalign loops station g).1 ∧
        rd w.reports p = rd u.reports p ++ ((rd u.ports p).unalign loops station g).2 := by
      simp only [loosed, loses_eq]
      rfl
    refine ⟨giveDivider_none, fun dv record => ⟨giveDivider_same record, giveDivider_pending record, fun elsewhere => ?moved⟩, ?freed⟩
    case moved =>
      refine ⟨?dividers', ?draws, ?sameMoment, ?starts, (loosed_iff _).mpr (giveDivider_moved_port record elsewhere)⟩
      case dividers' =>
        rw [show given = _ from giveDivider_moved record elsewhere, SwitchUnit.establish]
        dsimp only
        rw [atAllPorts_dividers, atAllPorts_starts, GroupDivider.established]
      case draws => rw [show given = _ from giveDivider_moved record elsewhere, establish_draws, atAllPorts_draws]
      case sameMoment => rw [show given = _ from giveDivider_moved record elsewhere, establish_sameMoment, atAllPorts_sameMoment]
      case starts => rw [show given = _ from giveDivider_moved record elsewhere, establish_starts, atAllPorts_starts]
    case freed =>
      exact ⟨rfl, releaseDivider_draws _ _, releaseDivider_sameMoment _ _, releaseDivider_starts _ _,
        (loosed_iff _).mpr (releaseDivider_port u g), fun p => ⟨giveDivider_lineLow u g k v p, releaseDivider_lineLow u g p⟩⟩

end Sys2Proof.Machine

/-! Lock events taken by the grant engine (05 R88, R92 to R98; 06 R114, R116): the events of a loop in order, and what each does at one binding. -/

namespace Sys2Proof.Machine

/-! ### The events of a loop, in the order raised (03 R65) -/

section Events

variable {s : State} {k : LoopIx} {e : LockEvent} {rest : List LockEvent} {kind : LockEventKind}

theorem takeNextLock_none (empty : rd s.loops.events k = []) : s.takeNextLock k kind = s := by
  rw [State.takeNextLock, State.lockEvents, empty]

theorem takeNextLock_other (events : rd s.loops.events k = e :: rest) (other : kind ≠ e.kind) : s.takeNextLock k kind = s := by
  rw [State.takeNextLock, State.lockEvents, events]
  exact if_neg other.symm

theorem takeNextLock_next (events : rd s.loops.events k = e :: rest) (same : e.kind = kind) :
    s.takeNextLock k kind = (s.setLockEvents k rest).takeLock k kind := by
  rw [State.takeNextLock, State.lockEvents, events]
  exact if_pos same

/-- The instruction with which the grant engine takes a lock event of a kind. -/
def takeRow (k : LoopIx) : LockEventKind → Instr
  | .gained => .lockGained k
  | .lost => .lockLost k
  | .holdoverEntered => .holdoverEntered k
  | .holdoverEnded => .holdoverEnded k

theorem exec_takeRow (running : s.restart.startUp = .running) (k : LoopIx) (kind : LockEventKind) :
    exec (takeRow k kind) s = .next (s.takeNextLock k kind) := by
  cases kind <;> exact congrArg Host.Outcome.next (if_pos (isRunning_iff.mpr running))

end Events

/-! ### One binding -/

section Binding

variable {s : State} {b : Binding} {g : Grant} {c : GrantBinding} {p : PortIx}

/-- A port requested by the state of the grant record M just written. -/
theorem requestByState_written {e : GrantEngine} {m : Grant} (recorded : rd e.grants p = some m) (n : NoticeUnit) :
    ({ s with engine := e, notices := n } : State).requestByState p =
      { s with engine := e, notices := n, switch := s.switch.request s.loops.loops s.station.station p (s.portTarget m) } := by
  have recorded' : ({ s with engine := e, notices := n } : State).grantAt p = some m := recorded
  rw [requestByState_live recorded', portTarget_congr (s := s) rfl]
  rfl

theorem setCutOver_eq {t : GrantBinding} {f tol : Nat} {old : CutOver} (live : s.grantAt p = some g) (flight : g.retune = some (.newLoop t f tol old))
    (cut : CutOver) :
    let m : Grant := { g with retune := some (.newLoop t f tol cut) }
    s.setCutOver p cut = { s with
      engine := { s.engine with grants := wr s.engine.grants p (some m) },
      switch := s.switch.request s.loops.loops s.station.station p (s.portTarget m) } := by
  intro m
  simp only [State.setCutOver, live, flight]
  rw [updGrant_live live]
  exact requestByState_written (rd_wr_same _ _ _) s.notices

theorem gainedTarget_bound (binding : g.binding = some c) (free : ∀ t f tol, g.retune ≠ some (.newLoop t f tol .inFlight)) :
    g.gainedTarget = .loop c.loop c.d g.group := by
  rw [← loopSource_bound binding]
  unfold Grant.gainedTarget
  rcases retune : g.retune with _ | (_ | ⟨t, f, tol, cut⟩)
  · rfl
  · rfl
  · cases cut with
    | awaitingLock => rfl
    | inFlight => exact absurd retune (free t f tol)

theorem gainedTarget_cutOver {t : GrantBinding} {f tol : Nat} (flight : g.retune = some (.newLoop t f tol .inFlight)) :
    g.gainedTarget = .loop t.loop t.d none := by
  unfold Grant.gainedTarget
  rw [flight]

theorem commitSameLoop_none {p : PortIx} (live : s.grantAt p = some g) (free : ∀ d f tol, g.retune ≠ some (.sameLoop d f tol)) :
    s.commitSameLoop p = s := by
  simp only [State.commitSameLoop, live]
  rcases retune : g.retune with _ | (⟨d, f, tol⟩ | _)
  · rfl
  · exact absurd retune (free d f tol)
  · rfl

theorem commitSameLoop_some {p : PortIx} {d f tol : Nat} (live : s.grantAt p = some g) (flight : g.retune = some (.sameLoop d f tol)) :
    s.commitSameLoop p = s.applyDivider p d f tol := by
  simp only [State.commitSameLoop, live, flight]

section Current

variable (live : s.resolve b.handle = some g) (current : b.role = .current)

include live current

theorem gainedAt_requests (waits : g.state = .pending ∨ (g.state = .degraded ∧ g.policy ≠ .keep)) :
    s.gainedAt b = s.requestSwitch b.handle.port g.gainedTarget := by
  rw [State.gainedAt, live, current]
  dsimp only
  rcases waits with pending | ⟨degraded, policy⟩
  · rw [pending]
  · rw [degraded]
    exact if_neg policy

theorem gainedAt_restores (degraded : g.state = .degraded) (keep : g.policy = .keep) :
    let m : Grant := { g with state := .active }
    s.gainedAt b = { s with
      engine := { s.engine with grants := wr s.engine.grants b.handle.port (some m) },
      notices := s.notices.raise b.handle.port .restored,
      switch := s.switch.request s.loops.loops s.station.station b.handle.port (s.portTarget m) } := by
  intro m
  rw [State.gainedAt, live, current]
  dsimp only
  rw [degraded]
  dsimp only
  rw [if_pos keep, updGrant_live (resolve_some live).1]
  exact requestByState_written (rd_wr_same _ _ _) _

theorem gainedAt_settled (settled : g.state = .active ∨ g.state = .stranded) : s.gainedAt b = s := by
  rw [State.gainedAt, live, current]
  dsimp only
  rcases settled with active | stranded
  · rw [active]
  · rw [stranded]

theorem lostAt_active (active : g.state = .active) : s.lostAt b =
    (((s.commitSameLoop b.handle.port).updGrant b.handle.port (fun g => { g with state := .degraded })).raise b.handle.port .degraded).requestByState
      b.handle.port := by
  rw [State.lostAt, live, current]
  dsimp only
  rw [active]

theorem lostAt_requests (waits : g.state = .pending ∨ g.state = .degraded) :
    s.lostAt b = s.requestSwitch b.handle.port (s.portTarget g) := by
  rw [State.lostAt, live, current, ← requestByState_live (resolve_some live).1]
  dsimp only
  rcases waits with pending | degraded
  · rw [pending]
  · rw [degraded]

theorem lostAt_stranded (stranded : g.state = .stranded) : s.lostAt b = s := by
  rw [State.lostAt, live, current]
  dsimp only
  rw [stranded]

theorem lostAt_degrades (active : g.state = .active) (free : ∀ d f tol, g.retune ≠ some (.sameLoop d f tol)) :
    let m : Grant := { g with state := .degraded }
    s.lostAt b = { s with
      engine := { s.engine with grants := wr s.engine.grants b.handle.port (some m) },
      notices := s.notices.raise b.handle.port .degraded,
      switch := s.switch.request s.loops.loops s.station.station b.handle.port (s.portTarget m) } := by
  intro m
  rw [lostAt_active live current active, commitSameLoop_none (resolve_some live).1 free, updGrant_live (resolve_some live).1]
  exact requestByState_written (rd_wr_same _ _ _) _

/-- A SAME_LOOP retune of an ACTIVE grant commits before the grant is DEGRADED (06 R114). -/
theorem lostAt_commits {d f tol : Nat} {groups : Vector (Option Group) 8} (active : g.state = .active) (flight : g.retune = some (.sameLoop d f tol))
    (carried : s.applyDivider b.handle.port d f tol =
      { s with
        engine := { s.redivided b.handle { g.retunedTo c d f tol with mark := false } c.loop d with groups := groups },
        notices := s.notices.raise b.handle.port .retuned }) :
    let m : Grant := { g.retunedTo c d f tol with mark := false, state := .degraded }
    s.lostAt b = { s with
      engine := { s.redivided b.handle m c.loop d with groups := groups },
      notices := (s.notices.raise b.handle.port .retuned).raise b.handle.port .degraded,
      switch := s.switch.request s.loops.loops s.station.station b.handle.port (s.portTarget m) } := by
  intro m
  let t : State := { s with
    engine := { s.redivided b.handle { g.retunedTo c d f tol with mark := false } c.loop d with groups := groups },
    notices := s.notices.raise b.handle.port .retuned }
  have recorded : t.grantAt b.handle.port = some { g.retunedTo c d f tol with mark := false } := rd_wr_same _ _ _
  have written : { t.engine with grants := wr t.engine.grants b.handle.port (some m) } =
      { s.redivided b.handle m c.loop d with groups := groups } := by
    simp only [t, State.redivided, wr_wr]
  rw [lostAt_active live current active, commitSameLoop_some (resolve_some live).1 flight, carried, updGrant_live (s := t) recorded]
  refine Eq.trans ?_ (requestByState_written (s := s) (rd_wr_same s.engine.grants b.handle.port (some m)) _)
  exact congrArg (fun e => State.requestByState { s with engine := e, notices := _ } b.handle.port) written

theorem holdoverAt_active (active : g.state = .active) : s.holdoverAt b = { s with notices := s.notices.raise b.handle.port .holdover } := by
  rw [State.holdoverAt, live, current]
  exact if_pos active

theorem holdoverAt_inactive (inactive : g.state ≠ .active) : s.holdoverAt b = s := by
  rw [State.holdoverAt, live, current]
  exact if_neg inactive

end Current

section Target

variable {t : GrantBinding} {f tol : Nat} {cut : CutOver} (live : s.resolve b.handle = some g) (target : b.role = .retuneTarget)

include live target

theorem holdoverAt_target : s.holdoverAt b = s := by rw [State.holdoverAt, live, target]

theorem gainedAt_target : s.gainedAt b = s.setCutOver b.handle.port .inFlight := by rw [State.gainedAt, live, target]

theorem lostAt_target_flying (flight : g.retune = some (.newLoop t f tol .inFlight)) : s.lostAt b = s.setCutOver b.handle.port .awaitingLock := by
  rw [State.lostAt, live, target]
  dsimp only
  rw [flight]

theorem lostAt_target_awaiting (waits : g.retune = some (.newLoop t f tol .awaitingLock)) : s.lostAt b = s := by
  rw [State.lostAt, live, target]
  dsimp only
  rw [waits]

end Target

end Binding

/-- Settles O53: the next event of a loop taken, and each event at a binding by the grant's state and role. -/
theorem lockEventsTaken : Obligations.LockEventsTaken := by
  unfold Obligations.LockEventsTaken
  refine ⟨fun s k running => ?events, fun s b dead => ⟨?gainedDead, ?lostDead, ?holdoverDead⟩, fun s b g live => ?binding⟩
  case events =>
    intro row
    have row_eq (kind : LockEventKind) : row kind = .next (s.takeNextLock k kind) := by
      rw [← exec_takeRow running k kind]
      cases kind <;> rfl
    refine ⟨fun empty kind => (row_eq kind).trans (by rw [takeNextLock_none empty]), fun e rest events => ?next⟩
    case next =>
      intro u
      have taken {kind : LockEventKind} (same : e.kind = kind) : row kind = .next (u.takeLock k kind) :=
        (row_eq kind).trans (by rw [takeNextLock_next events same]; rfl)
      exact ⟨fun kind other => (row_eq kind).trans (by rw [takeNextLock_other events other]), taken, taken, taken, taken⟩
  case gainedDead => rw [State.gainedAt, dead]
  case lostDead => rw [State.lostAt, dead]
  case holdoverDead => rw [State.holdoverAt, dead]
  case binding =>
    intro p toward become
    obtain ⟨recorded, gen⟩ := resolve_some live
    refine ⟨fun current => ⟨fun waits => ⟨fun c binding free => ?onLoop, fun t f tol flight => ?gainedCut⟩, gainedAt_restores live current,
      gainedAt_settled live current, lostAt_degrades live current, fun d f tol c active flight binding => ?commits, lostAt_requests live current,
      lostAt_stranded live current, holdoverAt_active live current, holdoverAt_inactive live current⟩,
      fun target => ⟨holdoverAt_target live target, fun t f tol cut flight => ⟨?cutOver, fun flying => ?deferred, fun waits => ?awaiting⟩⟩⟩
    case onLoop => rw [gainedAt_requests live current waits, gainedTarget_bound binding free] <;> rfl
    case gainedCut => rw [gainedAt_requests live current waits, gainedTarget_cutOver flight] <;> rfl
    case commits =>
      exact ⟨fun ungrouped => lostAt_commits live current active flight (applyDivider_ungrouped recorded gen binding ungrouped),
        fun gi gr group record => lostAt_commits live current active flight (applyDivider_grouped recorded gen binding group record)⟩
    case cutOver => exact (gainedAt_target live target).trans (setCutOver_eq recorded flight .inFlight)
    case deferred =>
      subst flying
      exact (lostAt_target_flying live target flight).trans (setCutOver_eq recorded flight .awaitingLock)
    case awaiting =>
      subst waits
      exact lostAt_target_awaiting live target flight

end Sys2Proof.Machine

/-! Switch reports taken by the grant engine (05 R89 to R91; 06 R114, R116, R117): a port's reports in order, the retunes they commit or defer, and
the cases of R90. -/

namespace Sys2Proof.Machine

/-! ### Reports in the order made, settled or not (05 R89) -/

section Reports

variable {s : State} {p : PortIx} {x : Source} {rest : List Report} {g : Grant}

theorem exec_switchCompletion (running : s.restart.startUp = .running) (reports : rd s.switch.reports p = .completion x :: rest) :
    exec (.switchCompletion p) s = .next ((s.setReports p rest).takeCompletion p x) := by
  change execSwitchCompletion p s = _
  rw [execSwitchCompletion, State.portReports, reports]
  exact congrArg Host.Outcome.next (if_pos (isRunning_iff.mpr running))

theorem exec_switchVoid (running : s.restart.startUp = .running) (reports : rd s.switch.reports p = .void x :: rest) :
    exec (.switchVoid p) s = .next ((s.setReports p rest).takeVoid p) := by
  change execSwitchVoid p s = _
  rw [execSwitchVoid, State.portReports, reports]
  exact congrArg Host.Outcome.next (if_pos (isRunning_iff.mpr running))

theorem completionSettled_iff : s.completionSettled p x = true ↔ (rd s.switch.ports p).switching = none ∧ (rd s.switch.ports p).current = x := by
  rw [State.completionSettled, Bool.and_eq_true, Option.isNone_iff_eq_none, beq_iff_eq]

theorem voidSettled_iff : s.voidSettled p = true ↔ (rd s.switch.ports p).switching = none ∧ (rd s.switch.ports p).current = .none :=
  completionSettled_iff

theorem requestByState_dead (dead : s.grantAt p = none) : s.requestByState p = s := by simp only [State.requestByState, dead]

theorem takeVoid_nothing (idle : (rd s.switch.ports p).switching ≠ none ∨ (rd s.switch.ports p).current ≠ .none ∨ s.grantAt p = none) :
    s.takeVoid p = s := by
  rw [State.takeVoid]
  split
  · rename_i settled
    obtain ⟨still, off⟩ := voidSettled_iff.mp settled
    exact requestByState_dead ((idle.resolve_left (not_not_intro still)).resolve_left (not_not_intro off))
  · rfl

theorem takeCompletion_nothing (idle : (rd s.switch.ports p).switching ≠ none ∨ (rd s.switch.ports p).current ≠ x ∨ s.grantAt p = none) :
    s.takeCompletion p x = s := by
  rw [State.takeCompletion]
  split
  · rename_i settled
    obtain ⟨still, arrived⟩ := completionSettled_iff.mp settled
    have dead := (idle.resolve_left (not_not_intro still)).resolve_left (not_not_intro arrived)
    have uncommitted : s.commitIfSameLoop p x = s := by simp only [State.commitIfSameLoop, dead]
    rw [uncommitted]
    simp only [State.settledCompletion, dead]
  · rfl

/-- A settled completion that commits no SAME_LOOP retune is taken by the retune in flight or the cases of R90. -/
theorem takeCompletion_settled (still : (rd s.switch.ports p).switching = none) (arrived : (rd s.switch.ports p).current = x)
    (live : s.grantAt p = some g) (uncommitted : g.sameLoopCommits x = false) : s.takeCompletion p x = s.settledCompletion p x := by
  rw [State.takeCompletion, if_pos (completionSettled_iff.mpr ⟨still, arrived⟩)]
  have same : s.commitIfSameLoop p x = s := by simp [State.commitIfSameLoop, live, uncommitted]
  rw [same]

theorem takeCompletion_commits (still : (rd s.switch.ports p).switching = none) (arrived : (rd s.switch.ports p).current = x)
    (live : s.grantAt p = some g) (commits : g.sameLoopCommits x = true) :
    s.takeCompletion p x = (s.commitSameLoop p).settledCompletion p x := by
  rw [State.takeCompletion, if_pos (completionSettled_iff.mpr ⟨still, arrived⟩)]
  have same : s.commitIfSameLoop p x = s.commitSameLoop p := by simp [State.commitIfSameLoop, live, commits]
  rw [same]

end Reports

/-! ### The cases of R90 -/

section Cases

variable {s : State} {p : PortIx} {x : Source} {g : Grant} {b : GrantBinding}

theorem onUsableLoop_iff (binding : g.binding = some b) : s.onUsableLoop g x = true ↔
    x = .loop b.loop b.d g.group ∧ ((s.loop b.loop).state = .locked ∨ (s.loop b.loop).state = .holdover) := by
  simp only [State.onUsableLoop, binding, Bool.and_eq_true, beq_iff_eq, usable_iff]

theorem onUsableLoop_unbound (unbound : g.binding = none) : s.onUsableLoop g x = false := by simp only [State.onUsableLoop, unbound]

theorem raiseIfHoldover_eq (binding : g.binding = some b) : s.raiseIfHoldover p g =
    { s with notices := if (s.loop b.loop).state = .holdover then s.notices.raise p .holdover else s.notices } := by
  simp only [State.raiseIfHoldover, State.boundInHoldover, binding, beq_iff_eq]
  by_cases holdover : (s.loop b.loop).state = .holdover
  · rw [if_pos holdover, if_pos holdover]
    rfl
  · rw [if_neg holdover, if_neg holdover]

/-- A raise, with HOLDOVER as well where the grant's loop is in HOLDOVER. -/
def State.told (s : State) (p : PortIx) (b : GrantBinding) (kind : PortKind) : NoticeUnit :=
  if (s.loop b.loop).state = .holdover then (s.notices.raise p kind).raise p .holdover else s.notices.raise p kind

/-- The grant record M written and a kind raised (R90 cases 2 and 3). -/
def State.noted (s : State) (p : PortIx) (m : Grant) (n : NoticeUnit) : State :=
  { s with engine := { s.engine with grants := wr s.engine.grants p (some m) }, notices := n }

theorem noted_raiseIfHoldover (m : Grant) (kind : PortKind) (binding : g.binding = some b) :
    (s.noted p m (s.notices.raise p kind)).raiseIfHoldover p g = s.noted p m (s.told p b kind) := by
  rw [raiseIfHoldover_eq binding]
  rfl

theorem completionCases_ready (live : s.grantAt p = some g) (binding : g.binding = some b) (pending : g.state = .pending)
    (arrived : s.onUsableLoop g x = true) (unmarked : g.mark = false) :
    s.completionCases p x g = s.noted p { g with state := .active } (s.told p b .ready) := by
  rw [State.completionCases, if_pos ⟨pending, arrived⟩]
  dsimp only
  rw [if_neg (by simp [unmarked]), updGrant_live live]
  exact noted_raiseIfHoldover (s := s) { g with state := .active } .ready binding

theorem completionCases_retuned (live : s.grantAt p = some g) (binding : g.binding = some b) (pending : g.state = .pending)
    (arrived : s.onUsableLoop g x = true) (marked : g.mark = true) :
    s.completionCases p x g = s.noted p { g with state := .active, mark := false } (s.told p b .retuned) := by
  rw [State.completionCases, if_pos ⟨pending, arrived⟩]
  dsimp only
  rw [if_pos marked, updGrant_live live, raiseRetuned_written]
  exact noted_raiseIfHoldover (s := s) { g with state := .active, mark := false } .retuned binding

theorem completionCases_restored (live : s.grantAt p = some g) (binding : g.binding = some b) (degraded : g.state = .degraded)
    (arrived : s.onUsableLoop g x = true) : s.completionCases p x g = s.noted p { g with state := .active } (s.told p b .restored) := by
  rw [State.completionCases, if_neg (by simp [degraded]), if_pos ⟨degraded, arrived⟩, updGrant_live live]
  exact noted_raiseIfHoldover (s := s) { g with state := .active } .restored binding

theorem completionCases_other (other : g.state = .active ∨ g.state = .stranded ∨ s.onUsableLoop g x = false) :
    s.completionCases p x g = if x = s.portTarget g then s else s.requestByState p := by
  have neither (state : GrantState) (moving : state = .pending ∨ state = .degraded) : ¬ (g.state = state ∧ s.onUsableLoop g x = true) := by
    rintro ⟨rfl, arrived⟩
    rcases other with active | stranded | elsewhere
    · rw [active] at moving
      simp at moving
    · rw [stranded] at moving
      simp at moving
    · rw [elsewhere] at arrived
      cases arrived
  rw [State.completionCases, if_neg (neither .pending (.inl rfl)), if_neg (neither .degraded (.inr rfl))]

theorem settledCompletion_cases (live : s.grantAt p = some g)
    (elsewhere : ∀ t f tol, g.retune = some (.newLoop t f tol .inFlight) → x.onLoop t.loop = false) :
    s.settledCompletion p x = s.completionCases p x g := by
  simp only [State.settledCompletion, live]
  rcases retune : g.retune with _ | (_ | ⟨t, f, tol, cut⟩)
  · rfl
  · rfl
  · cases cut with
    | awaitingLock => rfl
    | inFlight => exact if_neg (by simp [elsewhere t f tol retune])

end Cases

/-! ### A NEW_LOOP retune commits (06 R117) -/

section NewLoop

variable {s : State} {p : PortIx} {g : Grant} {b t : GrantBinding} {f tol : Nat} {cut : CutOver}

/-- The lists, loops and ports once the RETUNE_TARGET binding of a grant is CURRENT and its old binding is removed. -/
def State.rebound (s : State) (h : Handle) (t b : GrantBinding) : State := (s.targetBecomesCurrent t.loop h).unbind b.loop h

theorem targetBecomesCurrent_list (k j : LoopIx) (h : Handle) : (s.targetBecomesCurrent k h).list j =
    if j = k then (s.list k).map (fun x => if x.handle = h then { x with role := .current } else x) else s.list j := list_setList _ _ _ _

theorem rebound_frame (h : Handle) : s.rebound h t b =
    { s with engine := { s.engine with lists := (s.rebound h t b).engine.lists },
             loops := { s.loops with loops := (s.rebound h t b).loops.loops }, switch := (s.rebound h t b).switch } := by
  rw [State.rebound, unbind_shape]
  rfl

theorem rebound_list_target (h : Handle) (other : b.loop ≠ t.loop) : (s.rebound h t b).list t.loop =
    (s.list t.loop).map (fun x => if x.handle = h then { x with role := .current } else x) := by
  rw [State.rebound, unbind_list, if_neg other.symm, targetBecomesCurrent_list, if_pos rfl]

theorem rebound_list_old (h : Handle) (other : b.loop ≠ t.loop) :
    (s.rebound h t b).list b.loop = (s.list b.loop).filter (fun x => x.handle != h) := by
  rw [State.rebound, unbind_list, if_pos rfl, targetBecomesCurrent_list, if_neg other]

theorem rebound_list_other (h : Handle) {k : LoopIx} (notTarget : k ≠ t.loop) (notOld : k ≠ b.loop) : (s.rebound h t b).list k = s.list k := by
  rw [State.rebound, unbind_list, if_neg notOld, targetBecomesCurrent_list, if_neg notTarget]

theorem rebound_loop (h : Handle) (other : b.loop ≠ t.loop) (k : LoopIx) : (s.rebound h t b).loop k =
    if k = b.loop ∧ emptiedBy (s.list b.loop) h then LoopRec.idle else s.loop k := by
  have stopped := (unbind_effect (s.targetBecomesCurrent t.loop h) b.loop h).2.1 k
  rw [targetBecomesCurrent_list, if_neg other] at stopped
  exact stopped

theorem rebound_switch (h : Handle) (other : b.loop ≠ t.loop) : (s.rebound h t b).switch =
    if emptiedBy (s.list b.loop) h then s.switch.loopIdle (s.rebound h t b).loops.loops s.station.station b.loop else s.switch := by
  have same : (s.targetBecomesCurrent t.loop h).list b.loop = s.list b.loop := by rw [targetBecomesCurrent_list, if_neg other]
  rw [State.rebound, unbind_eq, same]
  by_cases empty : emptiedBy (s.list b.loop) h
  · rw [if_pos empty, if_pos empty]
    rfl
  · rw [if_neg empty, if_neg empty]
    rfl

/-- A loop left with a binding, or without one of the grant's, runs on. -/
theorem rebound_keeps (h : Handle) (other : b.loop ≠ t.loop)
    (stays : (s.list b.loop).any (fun x => x.handle == h) = false ∨ (s.rebound h t b).list b.loop ≠ []) :
    (s.rebound h t b).loop b.loop = s.loop b.loop ∧ (s.rebound h t b).switch = s.switch := by
  have kept : ¬ emptiedBy (s.list b.loop) h := by
    rintro ⟨stood, empty⟩
    rcases stays with absent | left
    · cases absent.symm.trans stood
    · exact left ((rebound_list_old h other).trans empty)
  exact ⟨(rebound_loop h other b.loop).trans (if_neg fun stops => kept stops.2), (rebound_switch h other).trans (if_neg kept)⟩

/-- A loop emptied by the commit is stopped, and the ports see it go. -/
theorem rebound_stops (h : Handle) (other : b.loop ≠ t.loop) (stood : (s.list b.loop).any (fun x => x.handle == h) = true)
    (empty : (s.rebound h t b).list b.loop = []) : (s.rebound h t b).loop b.loop = LoopRec.idle ∧
      (s.rebound h t b).switch = s.switch.loopIdle (s.rebound h t b).loops.loops s.station.station b.loop := by
  have emptied : emptiedBy (s.list b.loop) h := ⟨stood, (rebound_list_old h other).symm.trans empty⟩
  exact ⟨(rebound_loop h other b.loop).trans (if_pos ⟨rfl, emptied⟩), (rebound_switch h other).trans (if_pos emptied)⟩

theorem commitNewLoop_eq (live : s.grantAt p = some g) (flight : g.retune = some (.newLoop t f tol cut)) (binding : g.binding = some b)
    (other : b.loop ≠ t.loop) :
    let v := s.rebound (g.handle p) t b
    s.commitNewLoop p = { v with
      engine := { v.engine with
        grants := wr s.engine.grants p (some { g with binding := some t, f := f, tol := tol, state := .active, retune := none, mark := false }) },
      notices := if (s.loop t.loop).state = .holdover then (s.notices.raise p .retuned).raise p .holdover else s.notices.raise p .retuned } := by
  intro v
  let bound : Grant := { g with binding := some t, f := f, tol := tol, state := .active }
  have grants : v.engine.grants = s.engine.grants := by rw [show v = _ from rebound_frame _]
  have notices : v.notices = s.notices := by rw [show v = _ from rebound_frame _]
  have loop : v.loop t.loop = s.loop t.loop := by
    rw [show v.loop t.loop = _ from rebound_loop _ other _]
    exact if_neg fun same => other same.1.symm
  have live' : v.grantAt p = some g := (congrArg (rd · p) grants).trans live
  let w : State := { v with
    engine := { v.engine with grants := wr s.engine.grants p (some { bound with mark := false }) }, notices := s.notices.raise p .retuned }
  have raised : (v.updGrant p (fun g => { g with binding := some t, f := f, tol := tol, state := .active })).raiseRetuned p = w := by
    rw [updGrant_live live', raiseRetuned_written, grants, notices]
  have told : (if (w.loop t.loop).state = .holdover then w.raise p .holdover else w) = { w with
      notices := if (s.loop t.loop).state = .holdover then (s.notices.raise p .retuned).raise p .holdover else s.notices.raise p .retuned } := by
    rw [show w.loop t.loop = s.loop t.loop from loop]
    split <;> rfl
  simp only [State.commitNewLoop, live, flight, binding]
  rw [show (s.targetBecomesCurrent t.loop (g.handle p)).unbind b.loop (g.handle p) = v from rfl, raised, told]
  have recorded (n : NoticeUnit) : ({ w with notices := n } : State).grantAt p = some { bound with mark := false } := rd_wr_same _ _ _
  rw [updGrant_live (recorded _)]
  simp only [w, wr_wr]
  rfl

end NewLoop

/-! ### The retunes that a completion finds in flight (06 R114, R116, R117) -/

section Flight

variable {s : State} {p : PortIx} {x : Source} {g : Grant} {b t : GrantBinding} {f tol d : Nat} {o : Option GroupIx}

theorem sameLoopCommits_newLoop {cut : CutOver} (flight : g.retune = some (.newLoop t f tol cut)) : g.sameLoopCommits x = false := by
  simp only [Grant.sameLoopCommits, flight]

theorem sameLoopCommits_none (settled : g.retune = none) : g.sameLoopCommits x = false := by simp only [Grant.sameLoopCommits, settled]

theorem sameLoopCommits_iff (flight : g.retune = some (.sameLoop d f tol)) (binding : g.binding = some b) :
    g.sameLoopCommits x = true ↔ x = .loop b.loop d g.group := by
  simp only [Grant.sameLoopCommits, flight, binding, beq_iff_eq]

theorem onLoop_eq_true {k : LoopIx} : x.onLoop k = true ↔ ∃ d o, x = .loop k d o := by
  cases x <;> simp [Source.onLoop]

/-- A completion that concerns no retune in flight: it commits none, and completes no cut-over. -/
theorem completion_aside (binding : g.binding = some b)
    (aside : g.retune = none ∨ (∃ t f tol, g.retune = some (.newLoop t f tol .awaitingLock)) ∨
      (∃ t f tol, g.retune = some (.newLoop t f tol .inFlight) ∧ ∀ d o, x ≠ .loop t.loop d o) ∨
      (∃ d f tol, g.retune = some (.sameLoop d f tol) ∧ x ≠ .loop b.loop d g.group)) :
    g.sameLoopCommits x = false ∧ ∀ t f tol, g.retune = some (.newLoop t f tol .inFlight) → x.onLoop t.loop = false := by
  rcases aside with settled | ⟨t, f, tol, waits⟩ | ⟨t, f, tol, flight, away⟩ | ⟨d, f, tol, flight, away⟩
  · exact ⟨sameLoopCommits_none settled, fun t f tol flight => by cases settled.symm.trans flight⟩
  · exact ⟨sameLoopCommits_newLoop waits, fun t f tol flight => by cases waits.symm.trans flight⟩
  · refine ⟨sameLoopCommits_newLoop flight, fun t' f' tol' flight' => Bool.eq_false_iff.mpr fun on => ?_⟩
    cases flight.symm.trans flight'
    obtain ⟨d, o, same⟩ := onLoop_eq_true.mp on
    exact away d o same
  · exact ⟨Bool.eq_false_iff.mpr (mt (sameLoopCommits_iff flight binding).mp away), fun t' f' tol' flight' => by cases flight.symm.trans flight'⟩

theorem settledCompletion_cutOver (live : s.grantAt p = some g) (flight : g.retune = some (.newLoop t f tol .inFlight)) (on : x = .loop t.loop d o) :
    s.settledCompletion p x = if (s.loop t.loop).usable then s.commitNewLoop p else s.setCutOver p .awaitingLock := by
  simp only [State.settledCompletion, live, flight]
  exact if_pos (onLoop_eq_true.mpr ⟨d, o, on⟩)

/-- After a SAME_LOOP commit the port of an ACTIVE grant has the source its state asks for. -/
theorem settledCompletion_committed {m : Grant} (live : s.grantAt p = some m) (settled : m.retune = none) (active : m.state = .active)
    (binding : m.binding = some b) (arrived : x = .loop b.loop b.d m.group) : s.settledCompletion p x = s := by
  have target : s.portTarget m = x := by
    rw [portTarget_settled settled, tableTarget_onItsLoop (onItsLoop_iff.mpr (.inl active)), loopSource_bound binding, arrived]
  rw [settledCompletion_cases live (by simp [settled]), completionCases_other (.inl active), if_pos target.symm]

theorem takeCompletion_sameLoop {v : State} (still : (rd s.switch.ports p).switching = none) (arrived : (rd s.switch.ports p).current = x)
    (live : s.grantAt p = some g) (flight : g.retune = some (.sameLoop d f tol)) (binding : g.binding = some b) (on : x = .loop b.loop d g.group)
    (active : g.state = .active) (step : s.applyDivider p d f tol = v)
    (recorded : v.grantAt p = some { g.retunedTo b d f tol with mark := false }) : s.takeCompletion p x = v := by
  rw [takeCompletion_commits still arrived live ((sameLoopCommits_iff flight binding).mpr on), commitSameLoop_some live flight, step]
  exact settledCompletion_committed (b := { b with d := d }) recorded rfl active rfl on

end Flight

/-- Settles O56: the reports in order; the retune in flight that a completion commits or defers; and the cases of R90 for every other. -/
theorem switchReportsTaken : Obligations.SwitchReportsTaken := by
  unfold Obligations.SwitchReportsTaken
  intro s p x rest running port u request
  refine ⟨fun empty => ⟨?noCompletion, ?noVoid⟩, fun reports => ⟨?otherCompletion, fun idle => ?voidNothing, fun g still off live => ?void⟩,
    fun reports => ?completion⟩
  case noCompletion =>
    change execSwitchCompletion p s = _
    rw [execSwitchCompletion, State.portReports, empty]
  case noVoid =>
    change execSwitchVoid p s = _
    rw [execSwitchVoid, State.portReports, empty]
  case otherCompletion =>
    change execSwitchCompletion p s = _
    rw [execSwitchCompletion, State.portReports, reports]
  case voidNothing => exact (exec_switchVoid running reports).trans (congrArg _ (takeVoid_nothing (s := s.setReports p rest) idle))
  case void =>
    refine (exec_switchVoid running reports).trans (congrArg _ ?_)
    exact (if_pos ((voidSettled_iff (s := u)).mpr ⟨still, off⟩)).trans (requestByState_live (s := u) live)
  case completion =>
    intro taken
    have row : taken = .next (u.takeCompletion p x) := exec_switchCompletion running reports
    refine ⟨?otherVoid, fun idle => row.trans (congrArg _ (takeCompletion_nothing (s := u) idle)), fun g still arrived live => ?settled⟩
    case otherVoid =>
      change execSwitchVoid p s = _
      rw [execSwitchVoid, State.portReports, reports]
    case settled =>
      intro h write
      have settles {v : State} (uncommitted : g.sameLoopCommits x = false) (step : u.settledCompletion p x = v) : taken = .next v :=
        row.trans (congrArg _ ((takeCompletion_settled (s := u) still arrived live uncommitted).trans step))
      refine ⟨fun t f tol d grp flight on => ⟨fun unlocked left => ?deferred, fun b usable binding other => ?newLoop⟩,
        fun d f tol b flight binding on active => ?sameLoop, fun b retune binding => ?cases, fun unbound idle => ?unboundOff, fun unbound idle => ?unboundOn⟩
      case deferred =>
        refine settles (sameLoopCommits_newLoop flight) ((settledCompletion_cutOver (s := u) live flight on).trans ?_)
        have unusable : ¬ (u.loop t.loop).usable = true := fun usable => (usable_iff.mp usable).elim unlocked left
        exact (if_neg unusable).trans (setCutOver_eq (s := u) live flight .awaitingLock)
      case newLoop =>
        let v := u.rebound h t b
        have frame : v = _ := rebound_frame (s := u) h
        refine ⟨_, settles (sameLoopCommits_newLoop flight) ((settledCompletion_cutOver (s := u) live flight on).trans
          ((if_pos (usable_iff.mpr usable)).trans (commitNewLoop_eq (s := u) live flight binding other))), rd_wr_same _ _ _,
          fun q away => rd_wr_ne _ _ _ _ away, ?groups, ?generations, rebound_list_target h other, rebound_list_old h other,
          fun k => rebound_list_other h, fun k away => (rebound_loop (s := u) h other k).trans (if_neg fun same => away same.1),
          rebound_keeps (s := u) h other, rebound_stops (s := u) h other, rfl, ?rest⟩
        case groups =>
          change v.engine.groups = s.engine.groups
          rw [frame]
        case generations =>
          change v.engine.generations = s.engine.generations
          rw [frame]
        case rest =>
          change v.restart = s.restart ∧ v.present = s.present ∧ v.station = s.station ∧ v.plan = s.plan ∧ v.maint = s.maint ∧ v.links = s.links ∧
            v.pending = s.pending ∧ v.loops.acquireLimit = s.loops.acquireLimit ∧ v.loops.holdoverLimit = s.loops.holdoverLimit ∧
            v.loops.events = s.loops.events
          rw [frame]
          exact ⟨rfl, rfl, rfl, rfl, rfl, rfl, rfl, rfl, rfl, rfl⟩
      case sameLoop =>
        intro a list commit
        have carried {v : State} (step : u.applyDivider h.port d f tol = v) (recorded : v.grantAt p = some a) : taken = .next v :=
          row.trans (congrArg _ (takeCompletion_sameLoop (s := u) still arrived live flight binding on active step recorded))
        exact ⟨fun ungrouped => carried (applyDivider_ungrouped (s := u) (h := h) live rfl binding ungrouped) (rd_wr_same _ _ _),
          fun gi gr group record => carried (applyDivider_grouped (s := u) (h := h) live rfl binding group record) (rd_wr_same _ _ _)⟩
      case cases =>
        intro arrived' told
        obtain ⟨uncommitted, elsewhere⟩ := completion_aside binding retune
        have cases' {v : State} (step : u.completionCases p x g = v) : taken = .next v :=
          settles uncommitted ((settledCompletion_cases (s := u) live elsewhere).trans step)
        have usable : u.onUsableLoop g x = true ↔ arrived' := onUsableLoop_iff binding
        refine ⟨fun pending on unmarked => cases' (completionCases_ready (s := u) live binding pending (usable.mpr on) unmarked),
          fun pending on marked => cases' (completionCases_retuned (s := u) live binding pending (usable.mpr on) marked),
          fun degraded on => cases' (completionCases_restored (s := u) live binding degraded (usable.mpr on)), fun other => ?other⟩
        case other =>
          have other' := completionCases_other (s := u) (p := p) (x := x) (g := g) (other.imp_right (Or.imp_right fun away =>
            Bool.eq_false_iff.mpr (mt usable.mp away)))
          exact ⟨fun same => cases' (other'.trans (if_pos same)),
            fun off => cases' ((other'.trans (if_neg off)).trans (requestByState_live (s := u) live))⟩
      case unboundOff =>
        intro off
        refine settles (sameLoopCommits_none idle) ((settledCompletion_cases (s := u) live (by simp [idle])).trans ?_)
        rw [completionCases_other (.inr (.inr (onUsableLoop_unbound unbound))), if_neg (show ¬ x = u.portTarget g from off)]
        exact requestByState_live (s := u) live
      case unboundOn =>
        intro same
        refine settles (sameLoopCommits_none idle) ((settledCompletion_cases (s := u) live (by simp [idle])).trans ?_)
        rw [completionCases_other (.inr (.inr (onUsableLoop_unbound unbound))), if_pos (show x = u.portTarget g from same)]

end Sys2Proof.Machine

/-! The rescue of one binding of a failing loop (05 R100 to R102, R105): a retune abandoned, a retune that takes over, an allocation, a stranding. -/

namespace Sys2Proof.Machine

section Rescue

variable {s : State} {k : LoopIx} {h : Handle} {g : Grant} {t n : GrantBinding} {f tol d : Nat}

/-- The grant engine with H's binding off loop K's list and the grant record M on its port. -/
def State.unbound (s : State) (k : LoopIx) (h : Handle) (m : Grant) : GrantEngine :=
  { s.engine with
    grants := wr s.engine.grants h.port (some m), lists := wr s.engine.lists k ((rd s.engine.lists k).filter (fun x => x.handle != h)) }

theorem removeBinding_updGrant (live : s.grantAt h.port = some g) (F : Grant → Grant) :
    (s.removeBinding k h).updGrant h.port F = { s with engine := s.unbound k h (F g) } :=
  updGrant_live (s := s.removeBinding k h) live F

/-- A RETUNE_TARGET binding on the failing loop (05 R100). -/
theorem abandonTarget_eq (live : s.grantAt h.port = some g) :
    let m : Grant := { g with retune := none }
    s.abandonTarget k h = { s with
      engine := s.unbound k h m,
      notices := s.notices.raise h.port .retuneFailed,
      switch := s.switch.request s.loops.loops s.station.station h.port (s.portTarget m) } := by
  intro m
  rw [State.abandonTarget, removeBinding_updGrant live]
  exact requestByState_written (s := s) (rd_wr_same _ _ _) _

/-- A NEW_LOOP retune takes over (05 R101). -/
theorem takeOver_eq (live : s.grantAt h.port = some g) (other : t.loop ≠ k) :
    let m : Grant := { g with binding := some t, f := f, tol := tol, retune := none, mark := true, state := .pending }
    let onTarget := (rd s.engine.lists t.loop).map (fun x => if x.handle = h then { x with role := .current } else x)
    s.takeOver k h t f tol = { s with
      engine := { s.engine with
        grants := wr s.engine.grants h.port (some m),
        lists := wr (wr s.engine.lists t.loop onTarget) k ((rd s.engine.lists k).filter (fun x => x.handle != h)) },
      switch := s.switch.request s.loops.loops s.station.station h.port (s.portTarget m) } := by
  intro m onTarget
  have list : (s.targetBecomesCurrent t.loop h).list k = s.list k := (targetBecomesCurrent_list t.loop k h).trans (if_neg other.symm)
  rw [State.takeOver, removeBinding_updGrant (s := s.targetBecomesCurrent t.loop h) live, State.unbound]
  refine (requestByState_written (s := s) (e := { s.engine with
    grants := wr s.engine.grants h.port (some m),
    lists := wr (wr s.engine.lists t.loop onTarget) k (((s.targetBecomesCurrent t.loop h).list k).filter (fun x => x.handle != h)) })
    (rd_wr_same _ _ _) s.notices).trans ?_
  rw [list]
  rfl

theorem abandonSameLoop_none (live : s.grantAt h.port = some g) (free : g.retune = none) : s.abandonSameLoop h.port = s := by
  simp only [State.abandonSameLoop, live, free]

theorem abandonSameLoop_some (live : s.grantAt h.port = some g) (flight : g.retune = some (.sameLoop d f tol)) :
    s.abandonSameLoop h.port = { s with
      engine := { s.engine with grants := wr s.engine.grants h.port (some { g with retune := none }) },
      notices := s.notices.raise h.port .retuneFailed } := by
  simp only [State.abandonSameLoop, live, flight]
  rw [updGrant_live live]
  rfl

/-- A grant without a retune moved to the loop that allocation found (05 R102), before its port is requested. -/
def State.movedAlone (s : State) (k : LoopIx) (h : Handle) (g : Grant) (n : GrantBinding) : State :=
  { s with
    engine := { s.engine with
      grants := wr s.engine.grants h.port (some { g with binding := some n, state := .pending }),
      lists := wr (wr s.engine.lists k ((rd s.engine.lists k).filter (fun x => x.handle != h))) n.loop
        (rd s.engine.lists n.loop ++ [{ handle := h, d := n.d, role := .current }]) },
    loops := s.loopsStarting n.loop n.entry,
    notices := s.notices.raise h.port .rescued }

theorem movedAlone_live : (s.movedAlone k h g n).grantAt h.port = some { g with binding := some n, state := .pending } := rd_wr_same _ _ _

theorem movedAlone_target (free : g.retune = none) (fresh : (s.loop n.loop).state ≠ .holdover) :
    (s.movedAlone k h g n).portTarget { g with binding := some n, state := .pending } =
      if (s.loop n.loop).state = .locked then .loop n.loop n.d g.group else g.pendingSource := by
  let m : Grant := { g with binding := some n, state := .pending }
  rw [portTarget_settled (g := m) free, tableTarget_pending (g := m) rfl rfl]
  exact if_congr (loopsStarting_usable (t := s.movedAlone k h g n) rfl fresh) rfl rfl

theorem bindCurrent_moved (live : s.grantAt h.port = some g) (gen : g.gen = h.gen) (other : n.loop ≠ k)
    (unfailed : (s.loop n.loop).state = .idle → (s.loop n.loop).failed = none) :
    (((s.removeBinding k h).bindCurrent h.port n).updGrant h.port (fun g => { g with state := .pending })).raise h.port .rescued =
      s.movedAlone k h g n := by
  have list : rd (s.removeBinding k h).engine.lists n.loop = rd s.engine.lists n.loop := rd_wr_ne _ _ _ _ other
  let bound : State := { s with
    engine := { s.engine with
      grants := wr s.engine.grants h.port (some { g with binding := some n }),
      lists := wr (wr s.engine.lists k ((rd s.engine.lists k).filter (fun x => x.handle != h))) n.loop
        (rd s.engine.lists n.loop ++ [{ handle := h, d := n.d, role := .current }]) },
    loops := s.loopsStarting n.loop n.entry }
  have binds : (s.removeBinding k h).bindCurrent h.port n = bound := by
    rw [bindCurrent_live (s := s.removeBinding k h) live gen unfailed, list]
    rfl
  have recorded : bound.grantAt h.port = some { g with binding := some n } := rd_wr_same _ _ _
  rw [binds, updGrant_live recorded]
  simp only [bound, State.raise, wr_wr]
  rfl

theorem rescueAlone_found (live : s.grantAt h.port = some g) (gen : g.gen = h.gen) (free : g.retune = none)
    (found : s.allocate g.f g.tol (some k) = some n) : s.rescueAlone k h = (s.movedAlone k h g n).requestSwitch h.port
      (if (s.loop n.loop).state = .locked then .loop n.loop n.d g.group else g.pendingSource) := by
  obtain ⟨excluded, -⟩ := allocate_found s g.f g.tol (some k) n found
  have other : n.loop ≠ k := fun same => excluded (congrArg some same.symm)
  unfold State.rescueAlone
  dsimp only
  rw [abandonSameLoop_none live free, live]
  dsimp only
  rw [found]
  dsimp only
  rw [bindCurrent_moved live gen other (allocate_unfailed found), requestByState_live movedAlone_live,
    movedAlone_target free (allocate_notHoldover found)]

/-- One grant stranded (05 R105). -/
theorem strand_one (resolved : s.resolve h = some g) : s.strand k h.port = { s with
    engine := s.unbound k h g.strandedRecord,
    notices := s.notices.raise h.port .stranded,
    maint := { s.maint with attention := s.maint.attention.raise .grantStranded },
    switch := s.switch.request s.loops.loops s.station.station h.port g.pendingSource } := by
  obtain ⟨live, -⟩ := resolve_some resolved
  have record : rd s.engine.grants h.port = some g := live
  have fold := strand_fold k [h] s (List.nodup_singleton _) (fun h' single => ⟨g, List.mem_singleton.mp single ▸ resolved⟩)
  have left : (s.list k).filter (fun x => ! [h].contains x.handle) = (rd s.engine.lists k).filter (fun x => x.handle != h) := by
    refine List.filter_congr fun x _ => ?_
    rw [List.contains_cons, List.contains_nil, Bool.or_false, bne]
  simp only [List.foldl_cons, List.foldl_nil, List.map_cons, List.map_nil, updGrants, left, live, record, Option.map_some] at fold
  exact fold

theorem rescueAlone_stranded (resolved : s.resolve h = some g) (free : g.retune = none) (failed : s.allocate g.f g.tol (some k) = none) :
    s.rescueAlone k h = { s with
      engine := s.unbound k h g.strandedRecord,
      notices := s.notices.raise h.port .stranded,
      maint := { s.maint with attention := s.maint.attention.raise .grantStranded },
      switch := s.switch.request s.loops.loops s.station.station h.port g.pendingSource } := by
  obtain ⟨live, -⟩ := resolve_some resolved
  unfold State.rescueAlone
  dsimp only
  rw [abandonSameLoop_none live free, live]
  dsimp only
  rw [failed]
  exact strand_one resolved

end Rescue

/-! ### The binding met by the walk (05 R99) -/

section Walk

variable {s : State} {k : LoopIx} {b : Binding} {g : Grant} {t : GrantBinding} {f tol : Nat} {cut : CutOver}

theorem rescueBinding_target (resolved : s.resolve b.handle = some g) (target : b.role = .retuneTarget) :
    s.rescueBinding k b = s.abandonTarget k b.handle := by rw [State.rescueBinding, resolved, target]

theorem rescueBinding_newLoop (resolved : s.resolve b.handle = some g) (current : b.role = .current) (flight : g.retune = some (.newLoop t f tol cut)) :
    s.rescueBinding k b = s.takeOver k b.handle t f tol := by
  rw [State.rescueBinding, resolved, current]
  dsimp only
  rw [flight]

/-- Without a NEW_LOOP retune the grant is rescued with its group, or alone. -/
theorem rescueBinding_current (resolved : s.resolve b.handle = some g) (current : b.role = .current)
    (settled : ∀ t f tol cut, g.retune ≠ some (.newLoop t f tol cut)) : s.rescueBinding k b = match s.groupOf g with
      | some (gi, gr) => s.rescueGroup k gi gr
      | none => s.rescueAlone k b.handle := by
  rw [State.rescueBinding, resolved, current]
  dsimp only
  rcases retune : g.retune with _ | (_ | ⟨t, f, tol, cut⟩)
  · rfl
  · rfl
  · exact absurd retune (settled t f tol cut)

theorem rescueBinding_alone (resolved : s.resolve b.handle = some g) (current : b.role = .current) (group : g.group = none)
    (settled : ∀ t f tol cut, g.retune ≠ some (.newLoop t f tol cut)) : s.rescueBinding k b = s.rescueAlone k b.handle := by
  rw [rescueBinding_current resolved current settled, groupOf_none group]

end Walk

/-- Settles O51: each rescue by the binding's role and the grant's retune. -/
theorem rescueOfOneBinding : Obligations.RescueOfOneBinding := by
  unfold Obligations.RescueOfOneBinding
  intro s k b g resolved p left
  obtain ⟨live, gen⟩ := resolve_some resolved
  refine ⟨fun t f tol cut target flight => (rescueBinding_target resolved target).trans (abandonTarget_eq live),
    fun t f tol cut current flight other => (rescueBinding_newLoop resolved current flight).trans (takeOver_eq live other),
    fun d f tol current flight group => ?sameLoop, fun current free group => ?alone⟩
  case sameLoop =>
    intro abandoned
    have resolved' : abandoned.resolve b.handle = some { g with retune := none } := by
      have live' : abandoned.grantAt b.handle.port = some { g with retune := none } := rd_wr_same _ _ _
      rw [State.resolve, live']
      exact if_pos gen
    rw [rescueBinding_alone resolved current group (by simp [flight]), rescueBinding_alone resolved' current group (by simp)]
    have again := abandonSameLoop_none (resolve_some resolved').1 rfl
    unfold State.rescueAlone
    dsimp only
    rw [abandonSameLoop_some live flight, show abandoned.abandonSameLoop b.handle.port = abandoned from again]
  case alone =>
    have alone := rescueBinding_alone (k := k) resolved current group (by simp [free])
    refine ⟨fun n found => ?found, fun failed => ?stranded⟩
    case found =>
      intro after started loops target
      obtain ⟨excluded, -⟩ := allocate_found s g.f g.tol (some k) n found
      refine ⟨fun same => excluded (congrArg some same.symm), alone.trans ((rescueAlone_found live gen free found).trans ?_)⟩
      rw [group]
      rfl
    case stranded =>
      intro after a
      rw [alone, rescueAlone_stranded resolved free failed, Attention.raise, upd_eq]
      rfl

end Sys2Proof.Machine

/-! The rescue of an alignment group of a failing loop (05 R103 to R105): the members' retunes abandoned, the search for a loop that serves them
all, and the group moved whole or stranded. -/

namespace Sys2Proof.Machine

/-! ### Grant records changed along a list of members -/

section Records

variable {grants : Vector (Option Grant) 24} {members : List Handle} {q : PortIx}

theorem map_ports (F : Grant → Grant) : (members.map (fun h => (h.port, F))).map Prod.fst = members.map Handle.port := by
  rw [List.map_map]
  rfl

theorem rd_updGrants_member (distinct : (members.map Handle.port).Nodup) (F : Grant → Grant) {h : Handle} (member : h ∈ members) :
    rd (updGrants grants (members.map (fun h => (h.port, F)))) h.port = (rd grants h.port).map F :=
  rd_updGrants_mem _ grants (h.port, F) (by rw [map_ports]; exact distinct) (List.mem_map_of_mem (f := fun h : Handle => (h.port, F)) member)

theorem rd_updGrants_other (F : Grant → Grant) (other : q ∉ members.map Handle.port) :
    rd (updGrants grants (members.map (fun h => (h.port, F)))) q = rd grants q :=
  rd_updGrants_not _ grants q (by rw [map_ports]; exact other)

end Records

/-! ### The retunes abandoned, and the search (05 R103) -/

section Search

variable {s : State} {members : List Handle}

/-- The card once the SAME_LOOP retunes of a group's members have been abandoned. -/
def State.retunesAbandoned (s : State) (members : List Handle) : State :=
  { s with
    engine := { s.engine with grants := updGrants s.engine.grants (members.map (fun h => (h.port, Grant.withoutRetune))) },
    notices := members.foldl (fun u h => if ((s.grantAt h.port).bind Grant.retune).isSome then u.raise h.port .retuneFailed else u) s.notices }

theorem retunesAbandoned_member (distinct : (members.map Handle.port).Nodup) {h : Handle} (member : h ∈ members) :
    (s.retunesAbandoned members).grantAt h.port = (s.grantAt h.port).map Grant.withoutRetune := rd_updGrants_member distinct _ member

theorem retunesAbandoned_other {q : PortIx} (other : q ∉ members.map Handle.port) : (s.retunesAbandoned members).grantAt q = s.grantAt q :=
  rd_updGrants_other _ other

/-- An entry serves the members with dividers DS, one for each, their least common multiple at most 4,096. -/
def State.Serves (s : State) (members : List Handle) (i : EntryIx) (ds : List Nat) : Prop :=
  ds.length = members.length ∧ lcmOf ds ≤ 4096 ∧
    ∀ (n : Nat) (h : Handle) (d : Nat), members[n]? = some h → ds[n]? = some d →
      ∃ m : Grant, s.grantAt h.port = some m ∧ matchEntry s.plan s.station.rate i m.f m.tol = some d

theorem servesGroup_eq_some {i : EntryIx} {ds : List Nat} : s.servesGroup members i = some ds ↔ s.Serves members i ds := by
  have each (d : Nat) (h : Handle) : (s.grantAt h.port).bind (fun g => matchEntry s.plan s.station.rate i g.f g.tol) = some d ↔
      ∃ m : Grant, s.grantAt h.port = some m ∧ matchEntry s.plan s.station.rate i m.f m.tol = some d := Option.bind_eq_some_iff
  have all := mapM_eq_some (fun h : Handle => (s.grantAt h.port).bind (fun g => matchEntry s.plan s.station.rate i g.f g.tol)) members ds
  simp only [each] at all
  unfold State.servesGroup State.Serves
  rw [and_left_comm, ← all]
  split
  · rename_i found search
    rw [search, Option.some.injEq]
    split
    · rename_i within
      rw [Option.some.injEq]
      exact ⟨fun same => ⟨same ▸ within, same⟩, And.right⟩
    · rename_i beyond
      exact ⟨nofun, fun ⟨within, same⟩ => absurd (same ▸ within) beyond⟩
  · rename_i search
    rw [search]
    exact ⟨nofun, fun ⟨_, found⟩ => nomatch found⟩

theorem servesGroup_eq_none {i : EntryIx} : s.servesGroup members i = none ↔ ∀ ds, ¬ s.Serves members i ds := by
  rw [Option.eq_none_iff_forall_not_mem]
  exact forall_congr' fun ds => not_congr servesGroup_eq_some

/-- An abandoned retune changes no target, so that the same entries serve. -/
theorem servesGroup_retunesAbandoned (distinct : (members.map Handle.port).Nodup) (i : EntryIx) :
    (s.retunesAbandoned members).servesGroup members i = s.servesGroup members i := by
  have targets (h : Handle) (member : h ∈ members) (d : Nat) :
      (∃ m : Grant, (s.retunesAbandoned members).grantAt h.port = some m ∧ matchEntry s.plan s.station.rate i m.f m.tol = some d) ↔
        ∃ m : Grant, s.grantAt h.port = some m ∧ matchEntry s.plan s.station.rate i m.f m.tol = some d := by
    rw [retunesAbandoned_member distinct member]
    cases s.grantAt h.port <;> simp [Grant.withoutRetune]
  refine Option.ext fun ds => servesGroup_eq_some.trans (Iff.trans ?_ servesGroup_eq_some.symm)
  exact and_congr_right fun _ => and_congr_right fun _ => forall_congr' fun n => forall_congr' fun h => forall_congr' fun d =>
    imp_congr_right fun listed => imp_congr_right fun _ => targets h (List.mem_of_getElem? listed) d

end Search

/-! ### The group moved (05 R104) -/

section Moved

variable {s : State} {k j : LoopIx} {i : EntryIx} {gi : GroupIx} {gr : Group} {ds : List Nat}

/-- A group moved to loop J, before its ports are requested (05 R104 steps 1 to 3). -/
def State.groupMoved (s : State) (k : LoopIx) (gi : GroupIx) (gr : Group) (j : LoopIx) (i : EntryIx) (ds : List Nat) : State :=
  { s with
    engine := { s.engine with
      grants := updGrants s.engine.grants ((gr.members.zip ds).map (fun m => (m.1.port, Grant.movedTo j i m.2))),
      lists := movedLists s.engine.lists k j (gr.members.zip ds),
      groups := wr s.engine.groups gi (some { gr with loop := j, g := lcmOf ds }) },
    loops := s.loopsStarted j i,
    notices := gr.members.foldl (fun u h => u.raise h.port .rescued) s.notices,
    switch := s.switch.giveDivider (s.loopsStarted j i).loops s.station.station gi j (lcmOf ds) }

theorem zip_members (length : ds.length = gr.members.length) : (gr.members.zip ds).map Prod.fst = gr.members :=
  List.map_fst_zip length.ge

theorem moveGroup_eq (other : j ≠ k) (unfailed : (s.loop j).state = .idle → (s.loop j).failed = none) (some' : gr.members ≠ [])
    (length : ds.length = gr.members.length) :
    s.moveGroup k gi gr j i ds = gr.members.foldl (fun s h => s.requestByState h.port) (s.groupMoved k gi gr j i ds) := by
  have pairs : gr.members.zip ds ≠ [] := fun none' => some' (by rw [← zip_members length, none']; rfl)
  unfold State.moveGroup
  dsimp only
  rw [moveBinding_fold k j i other (gr.members.zip ds) s pairs unfailed, moveGrant_fold, zip_members length]
  rfl

theorem groupMoved_member (distinct : (gr.members.map Handle.port).Nodup) (length : ds.length = gr.members.length) {n : Nat} {h : Handle} {d : Nat}
    (member : gr.members[n]? = some h) (divider : ds[n]? = some d) :
    (s.groupMoved k gi gr j i ds).grantAt h.port = (s.grantAt h.port).map (Grant.movedTo j i d) := by
  have paired : (h, d) ∈ gr.members.zip ds := List.mem_of_getElem? (i := n) (List.getElem?_zip_eq_some.mpr ⟨member, divider⟩)
  have ports : ((gr.members.zip ds).map (fun m => (m.1.port, Grant.movedTo j i m.2))).map Prod.fst = gr.members.map Handle.port := by
    rw [← zip_members length, List.map_map, List.map_map, zip_members length]
    rfl
  exact rd_updGrants_mem _ s.engine.grants (h.port, Grant.movedTo j i d) (ports ▸ distinct)
    (List.mem_map_of_mem (f := fun m : Handle × Nat => (m.1.port, Grant.movedTo j i m.2)) paired)

theorem groupMoved_other (length : ds.length = gr.members.length) {q : PortIx} (other : q ∉ gr.members.map Handle.port) :
    (s.groupMoved k gi gr j i ds).grantAt q = s.grantAt q := by
  refine rd_updGrants_not _ s.engine.grants q fun named => other ?_
  rw [← zip_members length, List.map_map]
  rwa [List.map_map] at named

theorem groupMoved_list_failing (other : j ≠ k) (length : ds.length = gr.members.length) :
    (s.groupMoved k gi gr j i ds).list k = (s.list k).filter (fun x => !gr.members.contains x.handle) := by
  change rd (movedLists s.engine.lists k j (gr.members.zip ds)) k = _
  rw [movedLists, zip_members length, rd_wr_ne _ _ _ _ other.symm, rd_wr_same]
  rfl

theorem groupMoved_list_found : (s.groupMoved k gi gr j i ds).list j =
    s.list j ++ (gr.members.zip ds).map (fun m => { handle := m.1, d := m.2, role := .current }) := rd_wr_same _ _ _

theorem groupMoved_list_other {l : LoopIx} (notFailing : l ≠ k) (notFound : l ≠ j) : (s.groupMoved k gi gr j i ds).list l = s.list l :=
  (rd_wr_ne _ _ _ _ notFound).trans (rd_wr_ne _ _ _ _ notFailing)

end Moved

/-! ### The group stranded (05 R105) -/

section Stranded

variable {s : State} {k : LoopIx} {gi : GroupIx} {gr : Group} {members : List Handle}

theorem dissolveGroup_eq (record : rd s.engine.groups gi = some gr) : s.dissolveGroup gi = { s with
    engine := { s.engine with
      grants := updGrants s.engine.grants (gr.members.map (fun h => (h.port, fun g => { g with group := none }))),
      groups := wr s.engine.groups gi none },
    switch := s.switch.releaseDivider s.loops.loops s.station.station gi } := by
  simp only [State.dissolveGroup, record]
  rw [leaveAll_fold]
  rfl

theorem retunesAbandoned_resolve (distinct : (members.map Handle.port).Nodup) {h : Handle} {m : Grant} (member : h ∈ members)
    (resolved : s.resolve h = some m) : (s.retunesAbandoned members).resolve h = some m.withoutRetune := by
  obtain ⟨live, gen⟩ := resolve_some resolved
  rw [State.resolve, retunesAbandoned_member distinct member, live]
  exact if_pos gen

/-- The ports of stranded members requested one after another: an abandoned retune changes no pending source. -/
theorem pendingRequests_retunesAbandoned (distinct : (members.map Handle.port).Nodup) (ask : SwitchUnit → PortIx → Source → SwitchUnit)
    (l : List Handle) (within : ∀ h ∈ l, h ∈ members) (u : SwitchUnit) :
    l.foldl (fun u h => match (s.retunesAbandoned members).grantAt h.port with
      | some m => ask u h.port m.pendingSource
      | none => u) u =
    l.foldl (fun u h => match s.grantAt h.port with
      | some m => ask u h.port m.pendingSource
      | none => u) u := by
  refine List.foldl_ext _ _ _ fun u h listed => ?_
  rw [retunesAbandoned_member distinct (within h listed)]
  cases s.grantAt h.port <;> rfl

/-- A group stranded whole and dissolved (05 R105, 01 R19). -/
def State.groupStranded (s : State) (k : LoopIx) (gi : GroupIx) (gr : Group) : State :=
  { s with
    engine := { s.engine with
      grants := updGrants (updGrants (updGrants s.engine.grants (gr.members.map (fun h => (h.port, Grant.withoutRetune))))
        (gr.members.map (fun h => (h.port, Grant.strandedRecord)))) (gr.members.map (fun h => (h.port, fun g => { g with group := none }))),
      lists := wr s.engine.lists k ((s.list k).filter (fun x => !gr.members.contains x.handle)),
      groups := wr s.engine.groups gi none },
    notices := gr.members.foldl (fun u h => u.raise h.port .stranded) (s.retunesAbandoned gr.members).notices,
    maint := { s.maint with attention := gr.members.foldl (fun a _ => a.raise .grantStranded) s.maint.attention },
    switch := (gr.members.foldl (fun u h => match s.grantAt h.port with
        | some m => u.request s.loops.loops s.station.station h.port m.pendingSource
        | none => u) s.switch).releaseDivider s.loops.loops s.station.station gi }

theorem strandGroup_eq (distinct : (gr.members.map Handle.port).Nodup) (live : ∀ h ∈ gr.members, ∃ m : Grant, s.resolve h = some m)
    (record : rd s.engine.groups gi = some gr) :
    (gr.members.foldl (fun s h => s.strand k h.port) (s.retunesAbandoned gr.members)).dissolveGroup gi = s.groupStranded k gi gr := by
  have live' : ∀ h ∈ gr.members, ∃ m : Grant, (s.retunesAbandoned gr.members).resolve h = some m := fun h member =>
    (live h member).imp' Grant.withoutRetune fun m resolved => retunesAbandoned_resolve distinct member resolved
  have requests := pendingRequests_retunesAbandoned (s := s) distinct (fun u p x => u.request s.loops.loops s.station.station p x) gr.members
    (fun _ => id) s.switch
  refine (congrArg (State.dissolveGroup · gi) (strand_fold k gr.members _ distinct live')).trans ?_
  refine (dissolveGroup_eq (gr := gr) ?_).trans ?_
  · exact record
  · refine State.ext_fields _ _ rfl rfl rfl rfl rfl ?_ rfl rfl rfl rfl rfl
    exact congrArg (fun u : SwitchUnit => u.releaseDivider s.loops.loops s.station.station gi) requests

theorem groupStranded_member (distinct : (gr.members.map Handle.port).Nodup) {h : Handle} (member : h ∈ gr.members) :
    (s.groupStranded k gi gr).grantAt h.port = (s.grantAt h.port).map (fun m => { m.withoutRetune.strandedRecord with group := none }) := by
  refine (rd_updGrants_member distinct _ member).trans ?_
  rw [rd_updGrants_member distinct _ member, rd_updGrants_member distinct _ member, Option.map_map, Option.map_map]
  rfl

theorem groupStranded_other {q : PortIx} (other : q ∉ gr.members.map Handle.port) : (s.groupStranded k gi gr).grantAt q = s.grantAt q :=
  (rd_updGrants_other _ other).trans ((rd_updGrants_other _ other).trans (rd_updGrants_other _ other))

end Stranded

/-! ### The rescue (05 R103) -/

section Rescue

variable {s : State} {k j : LoopIx} {i : EntryIx} {gi : GroupIx} {gr : Group} {ds : List Nat}

/-- The members of a group whose ports are distinct, each live and without a NEW_LOOP retune. -/
structure State.SoundMembers (s : State) (members : List Handle) : Prop where
  distinct : (members.map Handle.port).Nodup
  live : ∀ h ∈ members, ∃ m : Grant, s.resolve h = some m ∧ ∀ t f tol cut, m.retune ≠ some (.newLoop t f tol cut)

theorem abandon_members (sound : s.SoundMembers gr.members) :
    gr.members.foldl (fun s h => s.abandonSameLoop h.port) s = s.retunesAbandoned gr.members :=
  abandonSameLoop_fold gr.members s sound.distinct fun h member => (sound.live h member).imp fun _ => And.imp_left fun resolved =>
    (resolve_some resolved).1

theorem rescueGroup_search (sound : s.SoundMembers gr.members) : searchLoops (s.retunesAbandoned gr.members).loops.loops (some k)
    ((s.retunesAbandoned gr.members).servesGroup gr.members) = searchLoops s.loops.loops (some k) (s.servesGroup gr.members) :=
  congrArg _ (funext (servesGroup_retunesAbandoned sound.distinct))

theorem rescueGroup_found (sound : s.SoundMembers gr.members) (search : searchLoops s.loops.loops (some k) (s.servesGroup gr.members) = some (j, i, ds)) :
    s.rescueGroup k gi gr = (s.retunesAbandoned gr.members).moveGroup k gi gr j i ds := by
  unfold State.rescueGroup
  dsimp only
  rw [abandon_members sound, rescueGroup_search sound, search]

theorem rescueGroup_stranded (sound : s.SoundMembers gr.members) (record : rd s.engine.groups gi = some gr)
    (search : searchLoops s.loops.loops (some k) (s.servesGroup gr.members) = none) : s.rescueGroup k gi gr = s.groupStranded k gi gr := by
  unfold State.rescueGroup
  dsimp only
  rw [abandon_members sound, rescueGroup_search sound, search]
  exact strandGroup_eq sound.distinct (fun h member => (sound.live h member).imp fun _ => And.left) record

end Rescue

/-- Settles O52: the search in its order, and the group moved whole or stranded whole. -/
theorem rescueOfAGroup : Obligations.RescueOfAGroup := by
  unfold Obligations.RescueOfAGroup
  intro s k b gi gr g resolved current group record member distinct live t serves runs locked unlocked startable abandoned moved stranded
  have sound : s.SoundMembers gr.members := ⟨distinct, live⟩
  have settled : ∀ t f tol cut, g.retune ≠ some (.newLoop t f tol cut) := by
    obtain ⟨m, resolved', settled⟩ := live b.handle member
    obtain rfl := Option.some.inj (resolved.symm.trans resolved')
    exact settled
  have rescue : t = s.rescueGroup k gi gr := by
    rw [show t = _ from rescueBinding_current resolved current settled, groupOf_some group record]
  have moves {j i ds} (other : j ≠ k) (unfailed : (s.loop j).state = .idle → (s.loop j).failed = none) (fits : serves i ds)
      (search : searchLoops s.loops.loops (some k) (s.servesGroup gr.members) = some (j, i, ds)) : moved j i ds := by
    let a := s.retunesAbandoned gr.members
    have length : ds.length = gr.members.length := fits.1
    have some' : gr.members ≠ [] := List.ne_nil_of_mem member
    have result : t = _ := rescue.trans ((rescueGroup_found sound search).trans ((moveGroup_eq (s := a) other unfailed some' length).trans
      (requestByState_fold gr.members _)))
    change _ ∧ _ ∧ _ ∧ _ ∧ _ ∧ _
    rw [result]
    refine ⟨fun n h d listed divider => ?member, fun q away => ?other, groupMoved_list_failing (s := a) other length, groupMoved_list_found (s := a),
      fun l notFailing notFound => groupMoved_list_other (s := a) notFailing notFound, rfl⟩
    case member =>
      refine (groupMoved_member (s := a) distinct length listed divider).trans ?_
      rw [retunesAbandoned_member distinct (List.mem_of_getElem? listed), Option.map_map]
      rfl
    case other => exact (groupMoved_other (s := a) length away).trans (retunesAbandoned_other away)
  have strands (search : searchLoops s.loops.loops (some k) (s.servesGroup gr.members) = none) : stranded := by
    have result : t = s.groupStranded k gi gr := rescue.trans (rescueGroup_stranded sound record search)
    change _ ∧ _ ∧ _ ∧ _ ∧ _
    rw [result]
    exact ⟨fun h listed => groupStranded_member distinct listed, fun q away => groupStranded_other away, rd_wr_same _ _ _,
      fun l away => rd_wr_ne _ _ _ _ away, rfl⟩
  obtain ⟨first, rest⟩ := searchLoops_order s.loops.loops (some k) (s.servesGroup gr.members)
  have other_iff (j : LoopIx) : some k ≠ some j ↔ j ≠ k := by rw [ne_eq, Option.some.injEq, eq_comm]
  simp only [other_iff, servesGroup_eq_some, servesGroup_eq_none] at first rest
  have running {j : LoopIx} (state : (s.loop j).state ≠ .idle) : (s.loop j).state = .idle → (s.loop j).failed = none :=
    fun idle => absurd idle state
  refine ⟨fun j i ds isLocked satisfies lowest => ?locked, fun noLocked => ⟨fun j i ds isUnlocked satisfies lowest => ?unlocked,
    fun noUnlocked => ⟨fun j i ds canStart lowest fits least => ?start, fun nothing => ?nothing⟩⟩⟩
  case locked =>
    exact moves satisfies.1 (running (by rw [isLocked]; decide)) satisfies.2.2 (first j i ds isLocked satisfies lowest)
  case unlocked =>
    refine moves satisfies.1 (running fun idle => ?_) satisfies.2.2 ((rest noLocked).1 j i ds isUnlocked satisfies lowest)
    simp [unlocked, idle] at isUnlocked
  case start =>
    exact moves canStart.1 (fun _ => canStart.2.2) fits (((rest noLocked).2 noUnlocked).1 j i ds canStart lowest fits least)
  case nothing => exact strands (((rest noLocked).2 noUnlocked).2 nothing)

end Sys2Proof.Machine

/-! A loop failure (03 R55, R57, R66): the quarantine after the rescue, the attention cause, and the ports of a loop gone IDLE (04 R77, R80, R85). -/

namespace Sys2Proof.Machine

/-! ### The end of a loop failure (03 R66, 08 R149) -/

section Failure

variable {s : State} {k : LoopIx} {cause : FailCause}

/-- A loop failure after its rescue: the loop is quarantined in IDLE, the ports see it go, and LOOP_FAILED is raised. -/
theorem failLoop_eq (s : State) (k : LoopIx) (cause : FailCause) :
    let v := s.failAndRescue k cause
    let loops := wr v.loops.loops k { LoopRec.idle with failed := some cause }
    s.failLoop k cause = { v with
      loops := { v.loops with loops := loops },
      switch := v.switch.loopIdle loops v.station.station k,
      maint := { v.maint with attention := (v.maint.attention.raise .loopFailed).fillLatch } } := by
  intro v loops
  rw [State.failLoop, show s.failAndRescue k cause = v from rfl, State.quarantine, State.setLoop, State.portsLoopIdle, State.raiseCause, State.fillLatch]

theorem failLoop_attention (s : State) (k : LoopIx) (cause : FailCause) :
    (s.failLoop k cause).maint.attention = ((s.failAndRescue k cause).maint.attention.raise .loopFailed).fillLatch := by rw [failLoop_eq]

theorem failLoop_counts (c : Cause) : rd (s.failLoop k cause).maint.attention.counts c.index =
    if c = .loopFailed then min 255 (rd (s.failAndRescue k cause).maint.attention.counts c.index + 1)
    else rd (s.failAndRescue k cause).maint.attention.counts c.index := by
  rw [failLoop_attention, fillLatch_counts, raise_count]

theorem failLoop_loopFailed : 1 ≤ rd (s.failLoop k cause).maint.attention.counts Cause.loopFailed.index := by
  rw [failLoop_counts, if_pos rfl]
  omega

/-- Neither the rescue nor the raise moves the latch. -/
theorem failLoop_latchBefore : ((s.failAndRescue k cause).maint.attention.raise .loopFailed).latched = s.maint.attention.latched :=
  (failAndRescue_frame s k cause).latched

theorem failLoop_latched {c : Cause} (latched : s.maint.attention.latched = some c) :
    (s.failLoop k cause).maint.attention.latched = some c := by
  have before := (failLoop_latchBefore (k := k) (cause := cause)).trans latched
  rw [failLoop_attention, fillLatch_latched before, before]

theorem failLoop_fills (empty : s.maint.attention.latched = none) : (s.failLoop k cause).maint.attention.latched =
    [Cause.stationNone, .loopFailed, .grantStranded, .stationSwitched, .referenceQualified].find?
      (fun c => decide (0 < rd (s.failLoop k cause).maint.attention.counts c.index)) := by
  rw [failLoop_attention, fillLatch_empty (failLoop_latchBefore.trans empty), fillLatch_counts]

theorem failLoop_latchedSome : (s.failLoop k cause).maint.attention.latched.isSome = true := by
  cases latched : s.maint.attention.latched with
  | some c => rw [failLoop_latched latched, Option.isSome_some]
  | none =>
    rw [failLoop_fills latched, List.find?_isSome]
    exact ⟨.loopFailed, by decide, decide_eq_true failLoop_loopFailed⟩

theorem failLoop_units (s : State) (k : LoopIx) (cause : FailCause) :
    let v := s.failAndRescue k cause
    let t := s.failLoop k cause
    t.loops = { v.loops with loops := wr v.loops.loops k { LoopRec.idle with failed := some cause } } ∧
    t.switch = v.switch.loopIdle t.loops.loops s.station.station k ∧ t.engine = v.engine ∧ t.notices = v.notices := by
  intro v t
  rw [show t = _ from failLoop_eq s k cause, ← (failAndRescue_frame s k cause).station]
  exact ⟨rfl, rfl, rfl, rfl⟩

theorem failLoop_keeps (s : State) (k : LoopIx) (cause : FailCause) :
    let t := s.failLoop k cause
    t.restart = s.restart ∧ t.present = s.present ∧ t.station = s.station ∧ t.plan = s.plan ∧ t.links = s.links ∧ t.pending = s.pending ∧
    t.loops.acquireLimit = s.loops.acquireLimit ∧ t.loops.holdoverLimit = s.loops.holdoverLimit ∧
    t.maint = { s.maint with attention := t.maint.attention } := by
  intro t
  have frame := failAndRescue_frame s k cause
  rw [show t = _ from failLoop_eq s k cause]
  refine ⟨frame.restart, frame.present, frame.station, frame.plan, frame.links, frame.pending, frame.acquireLimit, frame.holdoverLimit, ?_⟩
  dsimp only
  rw [frame.maint]

theorem acquireTimeout_due (running : s.restart.startUp = .running) (released : s.maint.hold = false)
    (out : (s.loop k).timer = some { kind := .acquire, remaining := 0 }) (state : (s.loop k).state = .acquiring ∨ (s.loop k).state = .tracking) :
    exec (.acquireTimeout k) s = .next (s.failLoop k .acquireTimeout) :=
  congrArg Host.Outcome.next (if_pos ⟨(loopTimerOut_iff running .acquire).mpr ⟨released, out⟩, state⟩)

theorem acquireTimeout_nothing (running : s.restart.startUp = .running) (idle : s.maint.hold = true ∨
    (s.loop k).timer ≠ some { kind := .acquire, remaining := 0 } ∨ ((s.loop k).state ≠ .acquiring ∧ (s.loop k).state ≠ .tracking)) :
    exec (.acquireTimeout k) s = .next s := by
  refine congrArg Host.Outcome.next (if_neg ?_)
  rintro ⟨out, state⟩
  obtain ⟨released, timer⟩ := (loopTimerOut_iff running .acquire).mp out
  rcases idle with hold | kept | ⟨notAcquiring, notTracking⟩
  · cases hold.symm.trans released
  · exact kept timer
  · exact state.elim notAcquiring notTracking

theorem holdoverExpired_due (running : s.restart.startUp = .running) (released : s.maint.hold = false)
    (out : (s.loop k).timer = some { kind := .holdover, remaining := 0 }) (state : (s.loop k).state = .holdover) :
    exec (.holdoverExpired k) s = .next (s.failLoop k .holdoverExpired) :=
  congrArg Host.Outcome.next (if_pos ⟨(loopTimerOut_iff running .holdover).mpr ⟨released, out⟩, state⟩)

theorem holdoverExpired_nothing (running : s.restart.startUp = .running) (idle : s.maint.hold = true ∨
    (s.loop k).timer ≠ some { kind := .holdover, remaining := 0 } ∨ (s.loop k).state ≠ .holdover) : exec (.holdoverExpired k) s = .next s := by
  refine congrArg Host.Outcome.next (if_neg ?_)
  rintro ⟨out, state⟩
  obtain ⟨released, timer⟩ := (loopTimerOut_iff running .holdover).mp out
  rcases idle with hold | kept | other
  · cases hold.symm.trans released
  · exact kept timer
  · exact other state

end Failure

/-! ### The ports of a loop gone IDLE (04 R77, R85) -/

section Gone

variable {loops : Vector LoopRec 6} {station : Option Ref} {k : LoopIx} {r : PortRec} {sw : Switching}

/-- A switch toward the loop loses its target. -/
theorem loopGone_toward (switching : r.switching = some sw) (toward : sw.target.onLoop k = true) :
    r.loopGone loops station k = PortRec.advance loops station { r with switching := some { sw with lost := true } } := by
  rw [PortRec.loopGone, switching, Option.map_some, if_pos toward]

theorem loopGone_elsewhere (switching : r.switching = some sw) (elsewhere : sw.target.onLoop k = false) :
    r.loopGone loops station k = r.advance loops station := by
  rw [PortRec.loopGone, switching, Option.map_some, if_neg (by simp [elsewhere]), ← switching]

end Gone

/-- Settles O50: the two timers that fail a loop, the walk and the quarantine, and what the ports do when a loop goes IDLE. -/
theorem loopFailureCarriedOut : Obligations.LoopFailureCarriedOut := by
  unfold Obligations.LoopFailureCarriedOut
  refine ⟨fun s k running => ?failure, fun loops station u k gone => ?ports⟩
  case failure =>
    intro quarantined failed
    have carriedOut (cause : FailCause) : failed cause (s.failLoop k cause) := by
      obtain ⟨loops, switch, engine, notices⟩ := failLoop_units s k cause
      obtain ⟨restart, present, station, plan, links, pending, acquire, holdover, maint⟩ := failLoop_keeps s k cause
      exact ⟨loops, switch, engine, notices, failLoop_counts, failLoop_loopFailed, failLoop_latchedSome, fun c => failLoop_latched, failLoop_fills,
        restart, present, station, plan, links, pending, acquire, holdover, maint⟩
    exact ⟨fun released => ⟨fun out state => ⟨_, acquireTimeout_due running released out state, carriedOut _⟩,
      fun out state => ⟨_, holdoverExpired_due running released out state, carriedOut _⟩⟩, acquireTimeout_nothing running,
      holdoverExpired_nothing running⟩
  case ports =>
    intro after
    refine ⟨loopIdle_dividers u k, loopIdle_draws u k, loopIdle_sameMoment u k, loopIdle_starts u k, fun p => ?port⟩
    intro r becomes
    obtain ⟨port, reports⟩ := loopIdle_port (loops := loops) (station := station) u k p
    have result {y : PortRec × List Report} (step : r.loopGone loops station k = y) : becomes y := step ▸ ⟨port, reports⟩
    refine ⟨fun still => result (loopGone_still r k still), fun sw switching => ?switching⟩
    intro low
    refine ⟨?toward, fun elsewhere => ?elsewhere⟩
    case toward =>
      rintro ⟨d, g, target⟩
      have gone' := loopGone_toward (loops := loops) (station := station) (r := r) switching (onLoop_eq_true.mpr ⟨d, g, target⟩)
      exact ⟨fun isLow => result (gone'.trans (advance_lost (sw := { sw with lost := true }) rfl isLow rfl)),
        fun high => result (gone'.trans (advance_high (sw := { sw with lost := true }) rfl high))⟩
    case elsewhere =>
      have off : sw.target.onLoop k = false := Bool.eq_false_iff.mpr fun on => by
        obtain ⟨d, g, target⟩ := onLoop_eq_true.mp on
        exact elsewhere d g target
      have gone' := loopGone_elsewhere (loops := loops) (station := station) (r := r) switching off
      refine ⟨result gone', fun high => result (gone'.trans (advance_high switching high)),
        fun isLow kept some' edges => result (gone'.trans (advance_awaits switching isLow kept ?edges))⟩
      case edges =>
        rintro (none' | ⟨unaligned, silent⟩)
        · exact some' none'
        · rcases edges with aligned | sounding
          · exact aligned unaligned
          · cases sounding.symm.trans silent

end Sys2Proof.Machine
